-- ==== Sys2Proof/Word.lean ====
section
/-! DEFINITION. The words of the decimal4j CORE and the notation of spec/00_scope.md rule R8
that reads a pattern as a number and wraps a number to a pattern. -/

namespace Sys2Proof

/-- A 64-bit register pattern (00_scope.md R5). -/
abbrev Word := BitVec 64

/-- A 128-bit pattern: one WideInt (00_scope.md R5). -/
abbrev Wide := BitVec 128

/-- A 32-bit pattern: a command word or the `STATUS` register (00_scope.md R5). -/
abbrev Word32 := BitVec 32

/-- `I64MIN` of R8. -/
def i64Min : Int := -9223372036854775808

/-- `I64MAX` of R8. -/
def i64Max : Int := 9223372036854775807

/-- `s64` of R8. -/
def s64 (v : Word) : Int := v.toInt

/-- `s32` of R8. -/
def s32 (v : Word32) : Int := v.toInt

/-- `s128` of R8. -/
def s128 (v : Wide) : Int := v.toInt

/-- `wrap64` of R8. -/
def wrap64 (n : Int) : Word := BitVec.ofInt 64 n

/-- `wrap128` of R8. -/
def wrap128 (n : Int) : Wide := BitVec.ofInt 128 n

end Sys2Proof
end

