-- ==== Sys2Proof/Config.lean ====
section
/-! DEFINITION. What an implementation fixes (spec/00_scope.md R5, spec/92_eei_decisions.md) and the
values the spec leaves open. The constants without a body are open: nothing in Lean can evaluate
them, so a theorem that mentions one holds whatever its value is. -/

namespace Sys2Proof

/-- The largest scale (00_scope.md R5: "integer 0..18 (19 values)"). -/
def Config.maxScale : Nat := 18

/-- The pattern an unspecified register takes at a reset (10_state.md R21: "any 64-bit pattern,
possibly different at each reset"; 93_implementation_defined.md U1), by the number of the draw.
DESIGN CHOICE, notes/assumptions/2.md: a free value, no number is chosen. Every instance reads this one
constant (DESIGN CHOICE, unsafe, notes/assumptions/19.md). -/
opaque Config.unspecified : Nat → Word

/-- The open parameter NUM_CORES less one (92_eei_decisions.md D28, 93_implementation_defined.md
U4): R5 asks only that NUM_CORES is at least 1. -/
opaque Config.extraCores : Nat

/-- `NUM_CORES ≥ 1` (00_scope.md R5, 60_exceptions.md R152). -/
def Config.numCores : Nat := Config.extraCores + 1

end Sys2Proof
end

