-- ==== Sys2Proof/Syntax.lean ====
section
/-! DEFINITION. The command set (spec/30_encoding.md R46, R48, R49, R50): one constructor of
`Instr` for each of the 39 rows of spec/opcode_table.json. Every command word carries the Engine
triple, also where the command uses none of it (R46, R53), so every constructor carries it. -/

namespace Sys2Proof

/-- The eight rounding modes (00_scope.md R5, 30_encoding.md R48). -/
inductive RoundingMode where
  | up
  | down
  | ceiling
  | floor
  | halfUp
  | halfDown
  | halfEven
  | unnecessary
  deriving DecidableEq, Repr

/-- The two overflow modes (00_scope.md R5, 30_encoding.md R49). -/
inductive OverflowMode where
  | unchecked
  | checked
  deriving DecidableEq, Repr

/-- The Engine: the triple (scale, rounding mode, overflow mode) that every command word carries
(00_scope.md R6, 30_encoding.md R46). The scale is the 5-bit field of the word; `WellFormed.lean`
bounds it by 18. -/
structure Engine where
  scale : BitVec 5
  rm : RoundingMode
  ov : OverflowMode
  deriving DecidableEq, Repr

/-- The 39 commands, in the order of 30_encoding.md R50. -/
inductive Instr where
  -- no operation
  | nop (e : Engine)
  -- ScaleMetrics
  | sfget (e : Engine)
  | sfmaxi (e : Engine)
  | sfmini (e : Engine)
  | sfmul (e : Engine)
  | sfdiv (e : Engine)
  | sfmod (e : Engine)
  -- RoundingStrategy
  | rinc (e : Engine)
  | rincd (e : Engine)
  -- WideInt
  | add64w (e : Engine)
  | mul64 (e : Engine)
  | divw (e : Engine)
  | wneg (e : Engine)
  | wfits (e : Engine)
  | wisneg (e : Engine)
  | wsignum (e : Engine)
  | isqrt (e : Engine)
  -- Arithmetic Engine, additive and multiplicative
  | add (e : Engine)
  | sub (e : Engine)
  | mul (e : Engine)
  | mull (e : Engine)
  | mulp10 (e : Engine)
  | sqr (e : Engine)
  | avg (e : Engine)
  | abs (e : Engine)
  | neg (e : Engine)
  -- Arithmetic Engine, division, root, power, shifts
  | div (e : Engine)
  | divl (e : Engine)
  | divp10 (e : Engine)
  | inv (e : Engine)
  | sqrt (e : Engine)
  | pow (e : Engine)
  | shl (e : Engine)
  | shr (e : Engine)
  -- Arithmetic Engine, comparison and conversion
  | cmp (e : Engine)
  | sgn (e : Engine)
  | froml (e : Engine)
  | tol (e : Engine)
  | rescale (e : Engine)
  deriving DecidableEq, Repr

/-- Why a command word is no command: the three tests of 30_encoding.md R47, by name. -/
inductive DecodeError where
  /-- `cmd[31:17]` is not zero. -/
  | reservedBits
  /-- `cmd[12:8]` is above 18. -/
  | scaleTooLarge
  /-- `cmd[7:0]` is not in the opcode column of R50. -/
  | unknownOpcode
  deriving DecidableEq, Repr

end Sys2Proof
end

