-- ==== Sys2Proof/WellFormed.lean ====
section
/-! DEFINITION. Which terms of `Instr` are commands of the block: the scale is at most 18
(spec/30_encoding.md R46, R47, R53: for every command, whether it uses the scale or not). The other
fields of a command have no illegal value (R47). -/

namespace Sys2Proof

/-- The Engine triple a command carries (00_scope.md R6). -/
def Instr.engine : Instr → Engine
  | .nop e => e
  | .sfget e => e
  | .sfmaxi e => e
  | .sfmini e => e
  | .sfmul e => e
  | .sfdiv e => e
  | .sfmod e => e
  | .rinc e => e
  | .rincd e => e
  | .add64w e => e
  | .mul64 e => e
  | .divw e => e
  | .wneg e => e
  | .wfits e => e
  | .wisneg e => e
  | .wsignum e => e
  | .isqrt e => e
  | .add e => e
  | .sub e => e
  | .mul e => e
  | .mull e => e
  | .mulp10 e => e
  | .sqr e => e
  | .avg e => e
  | .abs e => e
  | .neg e => e
  | .div e => e
  | .divl e => e
  | .divp10 e => e
  | .inv e => e
  | .sqrt e => e
  | .pow e => e
  | .shl e => e
  | .shr e => e
  | .cmp e => e
  | .sgn e => e
  | .froml e => e
  | .tol e => e
  | .rescale e => e

/-- The scale is one of 0..18 (30_encoding.md R46). -/
def Engine.wf (e : Engine) : Bool := decide (e.scale.toNat ≤ Config.maxScale)

/-- A command of the block: its triple's scale is legal (30_encoding.md R47, R53). -/
def Instr.wf (i : Instr) : Bool := i.engine.wf

end Sys2Proof
end

