-- ==== Sys2Proof/Decode.lean ====
section
/-! DEFINITION. From command words to commands and back (spec/30_encoding.md). The decoder is total
on 32-bit words and on 64-bit port data; the encoder stands after it. -/

namespace Sys2Proof

/-! ### The fields of `CMD32` (R46) -/

/-- Bits 7:0, the opcode. -/
def cmdOp (w : Word32) : BitVec 8 := w.extractLsb' 0 8

/-- Bits 12:8, the scale. -/
def cmdScale (w : Word32) : BitVec 5 := w.extractLsb' 8 5

/-- Bits 15:13, the rounding mode. -/
def cmdRm (w : Word32) : BitVec 3 := w.extractLsb' 13 3

/-- Bit 16, the overflow mode. -/
def cmdOv (w : Word32) : BitVec 1 := w.extractLsb' 16 1

/-- Bits 31:17, reserved, must be 0. -/
def cmdZero (w : Word32) : BitVec 15 := w.extractLsb' 17 15

/-! ### Field codes (R48, R49) -/

/-- The rounding mode a 3-bit code names: all eight are legal (R48). -/
def roundingModeOfCode (c : BitVec 3) : RoundingMode :=
  match c.toNat with
  | 0 => .up
  | 1 => .down
  | 2 => .ceiling
  | 3 => .floor
  | 4 => .halfUp
  | 5 => .halfDown
  | 6 => .halfEven
  | _ => .unnecessary

/-- The code of a rounding mode (R48). -/
def roundingModeCode : RoundingMode → BitVec 3
  | .up => 0#3
  | .down => 1#3
  | .ceiling => 2#3
  | .floor => 3#3
  | .halfUp => 4#3
  | .halfDown => 5#3
  | .halfEven => 6#3
  | .unnecessary => 7#3

/-- The overflow mode a 1-bit code names (R49). -/
def overflowModeOfCode (c : BitVec 1) : OverflowMode :=
  match c.toNat with
  | 0 => .unchecked
  | _ => .checked

/-- The code of an overflow mode (R49). -/
def overflowModeCode : OverflowMode → BitVec 1
  | .unchecked => 0#1
  | .checked => 1#1

/-- The Engine triple of a word (R46). -/
def cmdEngine (w : Word32) : Engine :=
  { scale := cmdScale w, rm := roundingModeOfCode (cmdRm w), ov := overflowModeOfCode (cmdOv w) }

/-! ### The decoder (R47, R50) -/

/-- The command an opcode names, with its triple; `none` for the 217 reserved opcodes (R50, R52). -/
def instrOfOpcode (op : BitVec 8) (e : Engine) : Option Instr :=
  match op.toNat with
  | 0x00 => some (.nop e)
  | 0x10 => some (.sfget e)
  | 0x11 => some (.sfmaxi e)
  | 0x12 => some (.sfmini e)
  | 0x13 => some (.sfmul e)
  | 0x14 => some (.sfdiv e)
  | 0x15 => some (.sfmod e)
  | 0x20 => some (.rinc e)
  | 0x21 => some (.rincd e)
  | 0x30 => some (.add64w e)
  | 0x31 => some (.mul64 e)
  | 0x32 => some (.divw e)
  | 0x33 => some (.wneg e)
  | 0x34 => some (.wfits e)
  | 0x35 => some (.wisneg e)
  | 0x36 => some (.wsignum e)
  | 0x37 => some (.isqrt e)
  | 0x40 => some (.add e)
  | 0x41 => some (.sub e)
  | 0x42 => some (.mul e)
  | 0x43 => some (.mull e)
  | 0x44 => some (.mulp10 e)
  | 0x45 => some (.sqr e)
  | 0x46 => some (.avg e)
  | 0x47 => some (.abs e)
  | 0x48 => some (.neg e)
  | 0x50 => some (.div e)
  | 0x51 => some (.divl e)
  | 0x52 => some (.divp10 e)
  | 0x53 => some (.inv e)
  | 0x54 => some (.sqrt e)
  | 0x55 => some (.pow e)
  | 0x56 => some (.shl e)
  | 0x57 => some (.shr e)
  | 0x60 => some (.cmp e)
  | 0x61 => some (.sgn e)
  | 0x62 => some (.froml e)
  | 0x63 => some (.tol e)
  | 0x64 => some (.rescale e)
  | _ => none

/-- `Decode(cmd)` of R47: the three tests in the rule's order. It reads the word only. -/
def decode (w : Word32) : Except DecodeError Instr :=
  if cmdZero w ≠ 0#15 then .error .reservedBits
  else if (cmdScale w).toNat > Config.maxScale then .error .scaleTooLarge
  else
    match instrOfOpcode (cmdOp w) (cmdEngine w) with
    | some i => .ok i
    | none => .error .unknownOpcode

/-- The command word in a datum written to `CMD`: `data[31:0]`, the rest ignored
(10_state.md R15). -/
def commandWord (data : Word) : Word32 := data.extractLsb' 0 32

/-- Decoding of a whole 64-bit port datum (10_state.md R15, 30_encoding.md R47). -/
def decodeDatum (data : Word) : Except DecodeError Instr := decode (commandWord data)

/-! ### The encoder (R46, R50) -/

/-- The opcode of a command (R50). -/
def Instr.opcode : Instr → BitVec 8
  | .nop _ => 0x00#8
  | .sfget _ => 0x10#8
  | .sfmaxi _ => 0x11#8
  | .sfmini _ => 0x12#8
  | .sfmul _ => 0x13#8
  | .sfdiv _ => 0x14#8
  | .sfmod _ => 0x15#8
  | .rinc _ => 0x20#8
  | .rincd _ => 0x21#8
  | .add64w _ => 0x30#8
  | .mul64 _ => 0x31#8
  | .divw _ => 0x32#8
  | .wneg _ => 0x33#8
  | .wfits _ => 0x34#8
  | .wisneg _ => 0x35#8
  | .wsignum _ => 0x36#8
  | .isqrt _ => 0x37#8
  | .add _ => 0x40#8
  | .sub _ => 0x41#8
  | .mul _ => 0x42#8
  | .mull _ => 0x43#8
  | .mulp10 _ => 0x44#8
  | .sqr _ => 0x45#8
  | .avg _ => 0x46#8
  | .abs _ => 0x47#8
  | .neg _ => 0x48#8
  | .div _ => 0x50#8
  | .divl _ => 0x51#8
  | .divp10 _ => 0x52#8
  | .inv _ => 0x53#8
  | .sqrt _ => 0x54#8
  | .pow _ => 0x55#8
  | .shl _ => 0x56#8
  | .shr _ => 0x57#8
  | .cmp _ => 0x60#8
  | .sgn _ => 0x61#8
  | .froml _ => 0x62#8
  | .tol _ => 0x63#8
  | .rescale _ => 0x64#8

/-- The word of an opcode and a triple: the fields of R46 side by side, the reserved field 0. -/
def assembleWord (op : BitVec 8) (e : Engine) : Word32 :=
  (0#15 ++ overflowModeCode e.ov ++ roundingModeCode e.rm ++ e.scale ++ op : BitVec (15 + 1 + 3 + 5 + 8))

/-- The 32-bit word of a command (R46, R50). -/
def encode (i : Instr) : Word32 := assembleWord i.opcode i.engine

/-- The datum a host writes to `CMD` for a command: the word zero-extended. Bits 63:32 are ignored
(10_state.md R15), so any other upper half would do as well. -/
def commandDatum (i : Instr) : Word := (encode i).zeroExtend 64

/-! ### The opcode table's numbering -/

/-- The port datum that carries the `nbits` low bits of `w`, every bit above them 0
(notes/assumptions/6.md). -/
def tableDatum (nbits w : Nat) : Word := BitVec.ofNat 64 (w % 2 ^ nbits)

/-- What the decoder reads from an instruction whose bits are `w`, numbered as
spec/opcode_table.json numbers them: one 32-bit word, handed over in a port datum. -/
def decodeTableWord (nbits w : Nat) : Option Instr :=
  match decodeDatum (tableDatum nbits w) with
  | .ok i => some i
  | .error _ => none

end Sys2Proof
end

