-- ==== Sys2Proof/Machine/State.lean ====
section
/-! DEFINITION. The state of one block instance (spec/10_state.md), the host's transactions
(spec/20_memory.md R31), and the reasons a step could stop. State is plain data. There is no memory,
no program counter and no mode in it, because the spec gives the block none (R17, R30, R151). -/

namespace Sys2Proof.Machine

/-- The eight registers, which are also the eight locations of the register port
(10_state.md R10). -/
inductive PortReg where
  | a
  | b
  | c
  | wl
  | wh
  | r
  | status
  | cmd
  deriving DecidableEq, Repr

/-- What the host can do to the block: the two transactions of 20_memory.md R31, and the reset input
(70_reset_and_hazards.md R160). -/
inductive HostTxn where
  /-- `HostWrite(i, data)`. -/
  | write (index : BitVec 3) (data : Word)
  /-- `HostRead(i)`. -/
  | read (index : BitVec 3)
  /-- The reset input is asserted. -/
  | reset
  deriving DecidableEq, Repr

/-- The five fault causes (60_exceptions.md R140). They are reported in `STATUS`; none of them stops
the block (R150). -/
inductive Cause where
  | overflow
  | roundingRequired
  | divisionByZero
  | invalidArgument
  | illegalCommand
  deriving DecidableEq, Repr

/-- One block instance, and the host's side of its port. -/
structure State where
  /-- Register 0, first operand (10_state.md R10, R11). -/
  a : Word
  /-- Register 1, second operand (R10, R11). -/
  b : Word
  /-- Register 2, third operand (R10, R11). -/
  c : Word
  /-- Register 3, the low half of the wide accumulator (R10, R12). -/
  wl : Word
  /-- Register 4, the high half of the wide accumulator (R10, R12). -/
  wh : Word
  /-- Register 5, the result (R10, R13). -/
  r : Word
  /-- Register 6, flags and fault cause of the last command (R10, R14). -/
  status : Word32
  /-- Register 7, the last command word written (R10, R15). -/
  cmd : Word32
  /-- The MODEL's own: the host's transactions not yet taken, in issue order (20_memory.md R35;
  notes/assumptions/3.md). -/
  pending : List HostTxn
  /-- The MODEL's own: the datum the latest transaction returned to the host, if it was a `HostRead`
  (20_memory.md R31; notes/assumptions/4.md). -/
  readData : Option Word
  /-- The MODEL's own: how many unspecified patterns resets have drawn so far
  (10_state.md R21; notes/assumptions/2.md). -/
  draws : Nat
  deriving DecidableEq, Repr

/-- Reasons a step ends with the machine stopped by a fault. There is none, which is safe: "No
behaviour of the block is `stuck`" (93_implementation_defined.md section 1), and a fault of the spec
is a write of `STATUS`, after which the block goes on (60_exceptions.md R141, R150). -/
inductive Fault where
  deriving DecidableEq, Repr

/-- Reasons a step is refused. -/
inductive Refusal where
  /-- Raised by `exec` for a command that has no meaning in this model. No arm raises it: all 39
  commands have one. It would be safe: nothing could be proved of the command's effect. -/
  | notModelled (mnemonic : String)
  deriving DecidableEq, Repr

/-- The block right after reset (10_state.md R21, 70_reset_and_hazards.md R160): `STATUS` and `CMD`
are 0. The spec gives no value for the six data registers: the model names 0 (DESIGN CHOICE, unsafe,
notes/assumptions/1.md). The last three fields are the model's own (notes/assumptions/2.md to
notes/assumptions/5.md). -/
def State.reset : State where
  a := 0#64
  b := 0#64
  c := 0#64
  wl := 0#64
  wh := 0#64
  r := 0#64
  status := 0#32
  cmd := 0#32
  pending := []
  readData := none
  draws := 0

end Sys2Proof.Machine
end

