-- ==== Sys2Proof/Machine/Flags.lean ====
section
/-! DEFINITION. The range test, the `STATUS` register's fields and words, and the overflow policy
(spec/10_state.md R14, R18; spec/41_rounding_and_overflow.md R75; spec/60_exceptions.md R140). -/

namespace Sys2Proof.Machine

/-- `fits64` of 00_scope.md R8: `I64MIN ≤ n ≤ I64MAX`. -/
def fits64 (n : Int) : Bool := decide (i64Min ≤ n ∧ n ≤ i64Max)

/-! ### The fields of `STATUS` (10_state.md R14) -/

/-- Bit 0, `ERR`. -/
def statusErr (w : Word32) : Bool := w.getLsbD 0

/-- Bit 1, `V`. -/
def statusV (w : Word32) : Bool := w.getLsbD 1

/-- Bits 7:4, `CAUSE`. -/
def statusCause (w : Word32) : BitVec 4 := w.extractLsb' 4 4

/-- The code of a cause (60_exceptions.md R140). -/
def causeCode : Cause → BitVec 4
  | .overflow => 1#4
  | .roundingRequired => 2#4
  | .divisionByZero => 3#4
  | .invalidArgument => 4#4
  | .illegalCommand => 5#4

/-- A `STATUS` word from its three fields, every reserved bit 0 (10_state.md R14). -/
def statusWord (cause : BitVec 4) (v err : Bool) : Word32 :=
  (0#24 ++ cause ++ 0#2 ++ BitVec.ofBool v ++ BitVec.ofBool err : BitVec (24 + 4 + 2 + 1 + 1))

/-- `STATUS` after a command that does not fault: `ERR = 0`, `CAUSE = 0`, `V = v`
(40_scale_metrics.md R60, 42_wideint.md R85, 43_engine_add_mul.md R99). -/
def statusOk (v : Bool) : Word32 := statusWord 0#4 v false

/-- `STATUS` after a command that raises `c`: `V` is 1 for OVERFLOW alone
(60_exceptions.md R141). -/
def statusFault (c : Cause) : Word32 := statusWord (causeCode c) (decide (c = .overflow)) true

/-! ### The overflow policy -/

/-- `POLICY(ov, x)` of 41_rounding_and_overflow.md R75: the value for `R` and the flag `V`, or the
fault OVERFLOW. The range test is on the exact, rounded result (R76, C1). -/
def policy (ov : OverflowMode) (x : Int) : Except Cause (Word × Bool) :=
  if fits64 x then .ok (wrap64 x, false)
  else
    match ov with
    | .checked => .error .overflow
    | .unchecked => .ok (wrap64 x, true)

end Sys2Proof.Machine
end

