-- ==== Sys2Proof/Machine/Operands.lean ====
section
/-! DEFINITION. Operand assembly: every form in which a command reads its operands from the
registers (spec/30_encoding.md R51, spec/10_state.md R11, R12, R16). A command has no immediate
field. -/

namespace Sys2Proof.Machine

/-- `a = s64(A)`. -/
abbrev State.opA (s : State) : Int := s64 s.a

/-- `b = s64(B)`, also the plain integer `k` of MULL and DIVL. -/
abbrev State.opB (s : State) : Int := s64 s.b

/-- `s64(C)`, the divisor of RINC. -/
abbrev State.opC (s : State) : Int := s64 s.c

/-- `n = s32(B[31:0])`, the `i32` argument. `B[63:32]` is ignored. -/
abbrev State.opN (s : State) : Int := s32 (s.b.extractLsb' 0 32)

/-- The pattern `{WH, WL}` of the wide accumulator (10_state.md R12). -/
abbrev State.wide (s : State) : Wide := (s.wh ++ s.wl : BitVec (64 + 64))

/-- `s128({WH, WL})`, the 128-bit operand. -/
abbrev State.opW (s : State) : Int := s128 s.wide

/-- `dg = B[3:0]`, the discarded digit of highest weight (41_rounding_and_overflow.md R79). -/
def State.opDigit (s : State) : Nat := (s.b.extractLsb' 0 4).toNat

/-- `nz = B[4]`, some discarded digit of lower weight is not zero (R79). -/
def State.opTrailing (s : State) : Bool := s.b.getLsbD 4

/-- `ng = B[5]`, the number being rounded is negative (R79). -/
def State.opNegative (s : State) : Bool := s.b.getLsbD 5

end Sys2Proof.Machine
end

