-- ==== Sys2Proof/Machine/Ops.lean ====
section
/-! DEFINITION. The operations every command and every transaction is built from: register port
access, the ways a command ends, and raising a fault. There is no return from a fault to model: the
next command executes normally and overwrites `STATUS` (spec/60_exceptions.md R150). -/

namespace Sys2Proof.Machine

/-! ### The register port (spec/20_memory.md R31) -/

/-- The register a 3-bit port index names (10_state.md R10). -/
def portReg (i : BitVec 3) : PortReg :=
  match i.toNat with
  | 0 => .a
  | 1 => .b
  | 2 => .c
  | 3 => .wl
  | 4 => .wh
  | 5 => .r
  | 6 => .status
  | _ => .cmd

/-- The port index of a register (10_state.md R10). -/
def portIndex : PortReg → BitVec 3
  | .a => 0#3
  | .b => 1#3
  | .c => 2#3
  | .wl => 3#3
  | .wh => 4#3
  | .r => 5#3
  | .status => 6#3
  | .cmd => 7#3

/-- What `HostRead` returns: the register, the two 32-bit ones zero-extended (10_state.md R14,
R15; 20_memory.md R31). -/
def State.readReg (s : State) : PortReg → Word
  | .a => s.a
  | .b => s.b
  | .c => s.c
  | .wl => s.wl
  | .wh => s.wh
  | .r => s.r
  | .status => s.status.zeroExtend 64
  | .cmd => s.cmd.zeroExtend 64

/-- The register write of a `HostWrite`: `R` and `STATUS` ignore it, `CMD` takes `data[31:0]`
(10_state.md R13, R14, R15; 20_memory.md R31). Launching the command is not part of this. -/
def State.writeReg (s : State) (data : Word) : PortReg → State
  | .a => { s with a := data }
  | .b => { s with b := data }
  | .c => { s with c := data }
  | .wl => { s with wl := data }
  | .wh => { s with wh := data }
  | .r => s
  | .status => s
  | .cmd => { s with cmd := data.extractLsb' 0 32 }

/-! ### The `fault` output -/

/-- The level of the `fault` output signal, at all times `STATUS.ERR` (60_exceptions.md R148). -/
def State.faultLine (s : State) : Bool := statusErr s.status

/-! ### How a command ends -/

/-- Raising a fault: `STATUS` is written and nothing else (60_exceptions.md R141). -/
def State.raise (s : State) (c : Cause) : State := { s with status := statusFault c }

/-- The accumulator written as one 128-bit pattern: `WH` the more significant half
(10_state.md R12). -/
def State.withWide (s : State) (w : Wide) : State :=
  { s with wl := w.extractLsb' 0 64, wh := w.extractLsb' 64 64 }

/-- Success with a result in `R` and the flag `V` (10_state.md R13, R14). -/
def State.succeed (s : State) (val : Word) (v : Bool) : State :=
  { s with r := val, status := statusOk v }

/-- Success with a result in `W`: `V` says the new `W` does not fit 64 bits (42_wideint.md R85). -/
def State.succeedWide (s : State) (w : Wide) : State :=
  { s.withWide w with status := statusOk (!fits64 (s128 w)) }

/-- A command that ends by `POLICY` or by an earlier fault: write back, or raise
(43_engine_add_mul.md R99, 60_exceptions.md R141). -/
def State.finish (s : State) (res : Except Cause (Word × Bool)) :
    Host.Outcome State Fault Refusal :=
  match res with
  | .ok (val, v) => .next (s.succeed val v)
  | .error c => .next (s.raise c)

/-- A command whose result always fits: `R <- wrap64(x)`, `V <- 0` (43_engine_add_mul.md R99), or
an earlier fault. -/
def State.finishFit (s : State) (res : Except Cause Int) : Host.Outcome State Fault Refusal :=
  match res with
  | .ok x => .next (s.succeed (wrap64 x) false)
  | .error c => .next (s.raise c)

end Sys2Proof.Machine
end

