-- ==== Sys2Proof/Machine/Rounding.lean ====
section
/-! DEFINITION. The rounding-increment selector and the rounded quotient
(spec/41_rounding_and_overflow.md R70 to R74, R80) and the increment of a square root
(spec/44_engine_div_sqrt_pow.md R121). All arithmetic is on `Int`. -/

namespace Sys2Proof.Machine

/-- `inc(rm, t, r, d)` of R70, for `d ≠ 0` and `|r| < |d|` (R72). The sign of the true result is
taken from `r` and `d` (R71). -/
def inc (rm : RoundingMode) (t r d : Int) : Except Cause Int :=
  if r = 0 then .ok 0
  else
    let neg : Bool := decide (r < 0) != decide (d < 0)
    let sg : Int := if neg then -1 else 1
    let twice : Nat := 2 * r.natAbs
    let ad : Nat := d.natAbs
    match rm with
    | .up => .ok sg
    | .down => .ok 0
    | .ceiling => .ok (if neg then 0 else 1)
    | .floor => .ok (if neg then -1 else 0)
    | .halfUp => .ok (if twice ≥ ad then sg else 0)
    | .halfDown => .ok (if twice > ad then sg else 0)
    | .halfEven =>
      .ok (if twice > ad then sg else if twice = ad ∧ t % 2 = 1 then sg else 0)
    | .unnecessary => .error .roundingRequired

/-- `incd(rm, t, dg, nz, ng)` of R80, for `dg ≤ 9`. -/
def incd (rm : RoundingMode) (t : Int) (dg : Nat) (nz ng : Bool) : Except Cause Int :=
  if dg = 0 ∧ nz = false then .ok 0
  else
    let sg : Int := if ng then -1 else 1
    let above : Bool := decide (dg > 5) || (decide (dg = 5) && nz)
    let tie : Bool := decide (dg = 5) && !nz
    match rm with
    | .up => .ok sg
    | .down => .ok 0
    | .ceiling => .ok (if ng then 0 else 1)
    | .floor => .ok (if ng then -1 else 0)
    | .halfUp => .ok (if above || tie then sg else 0)
    | .halfDown => .ok (if above then sg else 0)
    | .halfEven => .ok (if above || (tie && decide (t % 2 = 1)) then sg else 0)
    | .unnecessary => .error .roundingRequired

/-- `ROUNDQ(rm, n, d)` of R74, for `d ≠ 0`: `tdiv` is `Int.tdiv` and `trem` is `Int.tmod`
(00_scope.md R8). -/
def roundq (rm : RoundingMode) (n d : Int) : Except Cause Int :=
  let t := n.tdiv d
  match inc rm t (n.tmod d) d with
  | .ok i => .ok (t + i)
  | .error c => .error c

/-- `sqrtinc(rm, t, rem)` of 44_engine_div_sqrt_pow.md R121. -/
def sqrtinc (rm : RoundingMode) (t rem : Nat) : Except Cause Int :=
  if rem = 0 then .ok 0
  else
    match rm with
    | .down => .ok 0
    | .floor => .ok 0
    | .up => .ok 1
    | .ceiling => .ok 1
    | .halfUp => .ok (if rem > t then 1 else 0)
    | .halfDown => .ok (if rem > t then 1 else 0)
    | .halfEven => .ok (if rem > t then 1 else 0)
    | .unnecessary => .error .roundingRequired

/-- The rounded result first, then the overflow policy on it (R76, 60_exceptions.md R147). -/
def thenPolicy (ov : OverflowMode) (res : Except Cause Int) : Except Cause (Word × Bool) :=
  match res with
  | .ok x => policy ov x
  | .error c => .error c

/-- `POLICY(ov, ROUNDQ(rm, n, d))` under the modes of an Engine triple. -/
def roundPolicy (e : Engine) (n d : Int) : Except Cause (Word × Bool) :=
  thenPolicy e.ov (roundq e.rm n d)

end Sys2Proof.Machine
end

