-- ==== Sys2Proof/Machine/Power.lean ====
section
/-! DEFINITION. Multiplication by a signed power of ten or of two, the value rule shared by MULP10,
DIVP10, SHL, SHR and RESCALE (spec/43_engine_add_mul.md R105, spec/44_engine_div_sqrt_pow.md R118,
R123, R124, spec/45_engine_compare_convert.md R134). -/

namespace Sys2Proof.Machine

/-- `x`, for the signed exponent `n`: `a·base^n` where `n ≥ 0`, else `ROUNDQ(rm, a, base^(-n))`
(R105). -/
def scaleByPower (base : Nat) (rm : RoundingMode) (a n : Int) : Except Cause Int :=
  if 0 ≤ n then .ok (a * ((base ^ n.toNat : Nat) : Int))
  else roundq rm a ((base ^ (-n).toNat : Nat) : Int)

/-- An exponent brought into -128..128. Beyond that nothing observable changes for an operand of 64
bits: a non-zero product never fits and its low 64 bits are 0, and a quotient has `t = 0` and less
than half a unit of remainder (the corner cases of R105 and R123). That the cap changes no outcome is
the theorem `powerPolicy_eq` of Sys2Proof/Laws/Power.lean (notes/assumptions/9.md). -/
def capExponent (n : Int) : Int := max (-128) (min n 128)

/-- The rounded result of `a·base^n` through the overflow policy (R105). -/
def powerPolicy (base : Nat) (e : Engine) (a n : Int) : Except Cause (Word × Bool) :=
  thenPolicy e.ov (scaleByPower base e.rm a (capExponent n))

end Sys2Proof.Machine
end

