-- ==== Sys2Proof/Machine/Scale.lean ====
section
/-! DEFINITION. The three constant tables of spec/10_state.md R20, by the formulas the table is
computed from. They are functions of the scale and not state: "they never change, reset does not
touch them". The printed table is checked against them in Sys2Proof/Tests/Slice0.lean. -/

namespace Sys2Proof.Machine

/-- `SF[s] = 10^s`, the scale factor `F`. -/
def scaleFactor (s : BitVec 5) : Int := ((10 ^ s.toNat : Nat) : Int)

/-- `MAXI[s] = floor(I64MAX / 10^s)`. -/
def maxIntegerPart (s : BitVec 5) : Int := i64Max.fdiv (scaleFactor s)

/-- `MINI[s] = ceil(I64MIN / 10^s)`. -/
def minIntegerPart (s : BitVec 5) : Int := -((-i64Min).fdiv (scaleFactor s))

end Sys2Proof.Machine
end

