-- ==== Sys2Proof/Machine/AddMul.lean ====
section
/-! DEFINITION. The engine's additive and multiplicative commands and NOP
(spec/43_engine_add_mul.md). The value of each is the exact rule of its own; the fast paths of the
source are not observable (R110, R111; spec/20_memory.md R39). -/

namespace Sys2Proof.Machine

/-- NOP (R100): `STATUS <- 0`. -/
def execNop (_e : Engine) (s : State) : Host.Outcome State Fault Refusal :=
  .next { s with status := 0#32 }

/-- ADD (R101). -/
def execAdd (e : Engine) (s : State) : Host.Outcome State Fault Refusal :=
  s.finish (policy e.ov (s.opA + s.opB))

/-- SUB (R102). -/
def execSub (e : Engine) (s : State) : Host.Outcome State Fault Refusal :=
  s.finish (policy e.ov (s.opA - s.opB))

/-- MUL (R103). -/
def execMul (e : Engine) (s : State) : Host.Outcome State Fault Refusal :=
  s.finish (roundPolicy e (s.opA * s.opB) (scaleFactor e.scale))

/-- MULL (R104): `B` is a plain integer. -/
def execMull (e : Engine) (s : State) : Host.Outcome State Fault Refusal :=
  s.finish (policy e.ov (s.opA * s.opB))

/-- MULP10 (R105). -/
def execMulp10 (e : Engine) (s : State) : Host.Outcome State Fault Refusal :=
  s.finish (powerPolicy 10 e s.opA s.opN)

/-- SQR (R106). -/
def execSqr (e : Engine) (s : State) : Host.Outcome State Fault Refusal :=
  s.finish (roundPolicy e (s.opA * s.opA) (scaleFactor e.scale))

/-- AVG (R107): never overflows. -/
def execAvg (e : Engine) (s : State) : Host.Outcome State Fault Refusal :=
  s.finishFit (roundq e.rm (s.opA + s.opB) 2)

/-- ABS (R108). -/
def execAbs (e : Engine) (s : State) : Host.Outcome State Fault Refusal :=
  s.finish (policy e.ov (s.opA.natAbs : Int))

/-- NEG (R109). -/
def execNeg (e : Engine) (s : State) : Host.Outcome State Fault Refusal :=
  s.finish (policy e.ov (0 - s.opA))

end Sys2Proof.Machine
end

