-- ==== Sys2Proof/Machine/CompareConvert.lean ====
section
/-! DEFINITION. The engine's comparison and integer conversion commands
(spec/45_engine_compare_convert.md). -/

namespace Sys2Proof.Machine

/-- CMP (R130): the difference is formed in `Int`. -/
def execCmp (_e : Engine) (s : State) : Host.Outcome State Fault Refusal :=
  .next (s.succeed (wrap64 (s.opA - s.opB).sign) false)

/-- SGN (R131). -/
def execSgn (_e : Engine) (s : State) : Host.Outcome State Fault Refusal :=
  .next (s.succeed (wrap64 s.opA.sign) false)

/-- FROML (R132). -/
def execFroml (e : Engine) (s : State) : Host.Outcome State Fault Refusal :=
  s.finish (policy e.ov (s.opA * scaleFactor e.scale))

/-- TOL (R133): always fits. -/
def execTol (e : Engine) (s : State) : Host.Outcome State Fault Refusal :=
  s.finishFit (roundq e.rm s.opA (scaleFactor e.scale))

/-- RESCALE (R134): MULP10 with exponent `s - sourceScale`, taken in `Int`. -/
def execRescale (e : Engine) (s : State) : Host.Outcome State Fault Refusal :=
  s.finish (powerPolicy 10 e s.opA ((e.scale.toNat : Int) - s.opN))

end Sys2Proof.Machine
end

