-- ==== Sys2Proof/Machine/Root.lean ====
section
/-! DEFINITION. The integer square root (spec/00_scope.md R8, spec/42_wideint.md R93), digit by
digit from the highest bit of the root. R93 leaves the method open: only the value is normative. That
the value is the one of R8 for every radicand below `2^128` is the theorem `isqrt_spec` of
Sys2Proof/Laws/Root.lean. -/

namespace Sys2Proof.Machine

/-- The root's bits below `k`, highest first: bit `i` is kept where the square of the candidate does
not pass the radicand. -/
def isqrtFrom (n : Nat) : Nat → Nat → Nat
  | 0, t => t
  | k + 1, t => isqrtFrom n k (if (t + 2 ^ k) * (t + 2 ^ k) ≤ n then t + 2 ^ k else t)

/-- `isqrt(n)` for `n < 2^128`: 64 steps, one for each bit of the root (70_reset_and_hazards.md
R168). Zero stands apart so that the root of a radicand that is not a numeral is not unfolded through
the 64 steps. -/
def isqrt (n : Nat) : Nat :=
  match n with
  | 0 => 0
  | m + 1 => isqrtFrom (m + 1) 64 0

end Sys2Proof.Machine
end

