-- ==== Sys2Proof/Machine/DivPow.lean ====
section
/-! DEFINITION. The engine's division, root, power and shift commands
(spec/44_engine_div_sqrt_pow.md). The operand test comes first, then rounding, then overflow
(R115). -/

namespace Sys2Proof.Machine

/-- DIV (R116). -/
def execDiv (e : Engine) (s : State) : Host.Outcome State Fault Refusal :=
  if s.opB = 0 then .next (s.raise .divisionByZero)
  else s.finish (roundPolicy e (s.opA * scaleFactor e.scale) s.opB)

/-- DIVL (R117): `B` is a plain integer. -/
def execDivl (e : Engine) (s : State) : Host.Outcome State Fault Refusal :=
  if s.opB = 0 then .next (s.raise .divisionByZero)
  else s.finish (roundPolicy e s.opA s.opB)

/-- DIVP10 (R118): MULP10 with the exponent's sign reversed, the negation taken in `Int`. -/
def execDivp10 (e : Engine) (s : State) : Host.Outcome State Fault Refusal :=
  s.finish (powerPolicy 10 e s.opA (-s.opN))

/-- INV (R119). -/
def execInv (e : Engine) (s : State) : Host.Outcome State Fault Refusal :=
  if s.opA = 0 then .next (s.raise .divisionByZero)
  else s.finish (roundPolicy e (scaleFactor e.scale * scaleFactor e.scale) s.opA)

/-- The rounded root of R120: `t = isqrt(N)`, then `sqrtinc` on `t` and `N - t²`. -/
def roundRoot (rm : RoundingMode) (n : Nat) : Except Cause Int :=
  let t := isqrt n
  match sqrtinc rm t (n - t * t) with
  | .ok i => .ok ((t : Int) + i)
  | .error c => .error c

/-- SQRT (R120): the radicand is `a·F`. -/
def execSqrt (e : Engine) (s : State) : Host.Outcome State Fault Refusal :=
  if s.opA < 0 then .next (s.raise .invalidArgument)
  else s.finishFit (roundRoot e.rm (s.opA * scaleFactor e.scale).toNat)

/-- `STEP(ROUNDQ(rm, n, d))` of R122: the 64-bit signed value one engine multiply or invert leaves,
and `vacc` with this step's overflow in it. -/
def powStep (e : Engine) (n d : Int) (vacc : Bool) : Except Cause (Int × Bool) :=
  match roundPolicy e n d with
  | .ok (val, v) => .ok (s64 val, vacc || v)
  | .error c => .error c

/-- The loop of R122, for the bits of the exponent `ex` below bit `k`, highest first: square, and
multiply by `a` where the bit is 1. -/
def powLoop (e : Engine) (a : Int) (ex : Nat) : Nat → Int → Bool → Except Cause (Int × Bool)
  | 0, p, vacc => .ok (p, vacc)
  | k + 1, p, vacc =>
    match powStep e (p * p) (scaleFactor e.scale) vacc with
    | .error c => .error c
    | .ok (sq, v1) =>
      if ex.testBit k then
        match powStep e (sq * a) (scaleFactor e.scale) v1 with
        | .error c => .error c
        | .ok (pr, v2) => powLoop e a ex k pr v2
      else powLoop e a ex k sq v1

/-- The positive power of R122: the one-value for exponent 0, else the loop from `p = a` over the
bits below the highest one (`L - 1 = log2 e`). -/
def powMagnitude (e : Engine) (a : Int) (ex : Nat) : Except Cause (Int × Bool) :=
  if ex = 0 then .ok (scaleFactor e.scale, false)
  else powLoop e a ex ex.log2 a false

/-- POW's value and flag (R122): the positive power, inverted by one INV step where the exponent is
negative. -/
def powValue (e : Engine) (a n : Int) : Except Cause (Int × Bool) :=
  match powMagnitude e a n.natAbs with
  | .error c => .error c
  | .ok (p, v) =>
    if n < 0 then
      if p = 0 then .error .divisionByZero
      else powStep e (scaleFactor e.scale * scaleFactor e.scale) p v
    else .ok (p, v)

/-- POW (R122). -/
def execPow (e : Engine) (s : State) : Host.Outcome State Fault Refusal :=
  match powValue e s.opA s.opN with
  | .ok (p, v) => .next (s.succeed (wrap64 p) v)
  | .error c => .next (s.raise c)

/-- SHL (R123): the count is not reduced modulo 64. -/
def execShl (e : Engine) (s : State) : Host.Outcome State Fault Refusal :=
  s.finish (powerPolicy 2 e s.opA s.opN)

/-- SHR (R124): SHL with the count's sign reversed, the negation taken in `Int`. -/
def execShr (e : Engine) (s : State) : Host.Outcome State Fault Refusal :=
  s.finish (powerPolicy 2 e s.opA (-s.opN))

end Sys2Proof.Machine
end

