-- ==== Sys2Proof/Machine/RoundingSelector.lean ====
section
/-! DEFINITION. The commands that expose the rounding-increment selector
(spec/41_rounding_and_overflow.md R78, R79). -/

namespace Sys2Proof.Machine

/-- RINC (R78): `A` truncated value, `B` remainder, `C` divisor. The precondition is tested first
(60_exceptions.md R147). -/
def execRinc (e : Engine) (s : State) : Host.Outcome State Fault Refusal :=
  if s.opC = 0 ∨ s.opC.natAbs ≤ s.opB.natAbs then .next (s.raise .invalidArgument)
  else s.finishFit (inc e.rm s.opA s.opB s.opC)

/-- RINCD (R79): `A` truncated value, `B[3:0]` digit, `B[4]` trailing flag, `B[5]` sign. -/
def execRincd (e : Engine) (s : State) : Host.Outcome State Fault Refusal :=
  if s.opDigit > 9 then .next (s.raise .invalidArgument)
  else s.finishFit (incd e.rm s.opA s.opDigit s.opTrailing s.opNegative)

end Sys2Proof.Machine
end

