-- ==== Sys2Proof/Machine/ScaleMetrics.lean ====
section
/-! DEFINITION. The ScaleMetrics commands (spec/40_scale_metrics.md). None uses `rm` or `ov`, none
can fault (R60); that a scale is at most 18 is the decoder's test. -/

namespace Sys2Proof.Machine

/-- SFGET (R61). -/
def execSfget (e : Engine) (s : State) : Host.Outcome State Fault Refusal :=
  .next (s.succeed (wrap64 (scaleFactor e.scale)) false)

/-- SFMAXI (R62). -/
def execSfmaxi (e : Engine) (s : State) : Host.Outcome State Fault Refusal :=
  .next (s.succeed (wrap64 (maxIntegerPart e.scale)) false)

/-- SFMINI (R63). -/
def execSfmini (e : Engine) (s : State) : Host.Outcome State Fault Refusal :=
  .next (s.succeed (wrap64 (minIntegerPart e.scale)) false)

/-- SFMUL (R64): wraps in both overflow modes; `V` is informative. -/
def execSfmul (e : Engine) (s : State) : Host.Outcome State Fault Refusal :=
  let x := s.opA * scaleFactor e.scale
  .next (s.succeed (wrap64 x) (!fits64 x))

/-- SFDIV (R65): the quotient truncated toward zero (C4). -/
def execSfdiv (e : Engine) (s : State) : Host.Outcome State Fault Refusal :=
  .next (s.succeed (wrap64 (s.opA.tdiv (scaleFactor e.scale))) false)

/-- SFMOD (R66). -/
def execSfmod (e : Engine) (s : State) : Host.Outcome State Fault Refusal :=
  let f := scaleFactor e.scale
  .next (s.succeed (wrap64 (s.opA - f * s.opA.tdiv f)) false)

end Sys2Proof.Machine
end

