-- ==== Sys2Proof/Machine/WideInt.lean ====
section
/-! DEFINITION. The WideInt commands (spec/42_wideint.md). None uses the triple. -/

namespace Sys2Proof.Machine

/-- ADD64W (R86). -/
def execAdd64w (_e : Engine) (s : State) : Host.Outcome State Fault Refusal :=
  .next (s.succeedWide (wrap128 (s.opA + s.opB)))

/-- MUL64 (R87). -/
def execMul64 (_e : Engine) (s : State) : Host.Outcome State Fault Refusal :=
  .next (s.succeedWide (wrap128 (s.opA * s.opB)))

/-- DIVW (R88): quotient to `W`, remainder to `R`; the one quotient that does not fit 128 bits wraps
(C7). -/
def execDivw (_e : Engine) (s : State) : Host.Outcome State Fault Refusal :=
  if s.opB = 0 then .next (s.raise .divisionByZero)
  else
    .next { s.succeedWide (wrap128 (s.opW.tdiv s.opB)) with
      r := wrap64 (s.opW.tmod s.opB) }

/-- WNEG (R89). -/
def execWneg (_e : Engine) (s : State) : Host.Outcome State Fault Refusal :=
  .next (s.succeedWide (wrap128 (0 - s.opW)))

/-- WFITS (R90). -/
def execWfits (_e : Engine) (s : State) : Host.Outcome State Fault Refusal :=
  .next (s.succeed (if fits64 s.opW then 1#64 else 0#64) false)

/-- WISNEG (R91). -/
def execWisneg (_e : Engine) (s : State) : Host.Outcome State Fault Refusal :=
  .next (s.succeed (if s.opW < 0 then 1#64 else 0#64) false)

/-- WSIGNUM (R92). -/
def execWsignum (_e : Engine) (s : State) : Host.Outcome State Fault Refusal :=
  .next (s.succeed (wrap64 s.opW.sign) false)

/-- ISQRT (R93): root to `R` as an unsigned pattern, remainder to `W`. -/
def execIsqrt (_e : Engine) (s : State) : Host.Outcome State Fault Refusal :=
  if s.opW < 0 then .next (s.raise .invalidArgument)
  else
    let n := s.opW.toNat
    let t := isqrt n
    .next { s.withWide (wrap128 ((n : Int) - t * t)) with
      r := wrap64 t
      status := statusOk (decide (2 ^ 63 ≤ t)) }

end Sys2Proof.Machine
end

