-- ==== Sys2Proof/Machine/Dispatch.lean ====
section
/-! DEFINITION. One arm per command, in the order of spec/30_encoding.md R50. -/

namespace Sys2Proof.Machine

def exec (i : Instr) (s : State) : Host.Outcome State Fault Refusal :=
  match i with
  | .nop e => Sys2Proof.Machine.execNop e s
  | .sfget e => Sys2Proof.Machine.execSfget e s
  | .sfmaxi e => Sys2Proof.Machine.execSfmaxi e s
  | .sfmini e => Sys2Proof.Machine.execSfmini e s
  | .sfmul e => Sys2Proof.Machine.execSfmul e s
  | .sfdiv e => Sys2Proof.Machine.execSfdiv e s
  | .sfmod e => Sys2Proof.Machine.execSfmod e s
  | .rinc e => Sys2Proof.Machine.execRinc e s
  | .rincd e => Sys2Proof.Machine.execRincd e s
  | .add64w e => Sys2Proof.Machine.execAdd64w e s
  | .mul64 e => Sys2Proof.Machine.execMul64 e s
  | .divw e => Sys2Proof.Machine.execDivw e s
  | .wneg e => Sys2Proof.Machine.execWneg e s
  | .wfits e => Sys2Proof.Machine.execWfits e s
  | .wisneg e => Sys2Proof.Machine.execWisneg e s
  | .wsignum e => Sys2Proof.Machine.execWsignum e s
  | .isqrt e => Sys2Proof.Machine.execIsqrt e s
  | .add e => Sys2Proof.Machine.execAdd e s
  | .sub e => Sys2Proof.Machine.execSub e s
  | .mul e => Sys2Proof.Machine.execMul e s
  | .mull e => Sys2Proof.Machine.execMull e s
  | .mulp10 e => Sys2Proof.Machine.execMulp10 e s
  | .sqr e => Sys2Proof.Machine.execSqr e s
  | .avg e => Sys2Proof.Machine.execAvg e s
  | .abs e => Sys2Proof.Machine.execAbs e s
  | .neg e => Sys2Proof.Machine.execNeg e s
  | .div e => Sys2Proof.Machine.execDiv e s
  | .divl e => Sys2Proof.Machine.execDivl e s
  | .divp10 e => Sys2Proof.Machine.execDivp10 e s
  | .inv e => Sys2Proof.Machine.execInv e s
  | .sqrt e => Sys2Proof.Machine.execSqrt e s
  | .pow e => Sys2Proof.Machine.execPow e s
  | .shl e => Sys2Proof.Machine.execShl e s
  | .shr e => Sys2Proof.Machine.execShr e s
  | .cmp e => Sys2Proof.Machine.execCmp e s
  | .sgn e => Sys2Proof.Machine.execSgn e s
  | .froml e => Sys2Proof.Machine.execFroml e s
  | .tol e => Sys2Proof.Machine.execTol e s
  | .rescale e => Sys2Proof.Machine.execRescale e s

end Sys2Proof.Machine
end

