-- ==== Sys2Proof/Machine/Port.lean ====
section
/-! DEFINITION. What each transaction of the host does (spec/20_memory.md R31, R33,
spec/70_reset_and_hazards.md R160). A command runs to completion inside the write that launches
it. -/

namespace Sys2Proof.Machine

/-- `Execute(CMD)` (20_memory.md R33): decode the word in `CMD`, run the command, or raise
ILLEGAL_COMMAND (30_encoding.md R52, 60_exceptions.md R146). -/
def execute (s : State) : Host.Outcome State Fault Refusal :=
  match decode s.cmd with
  | .ok i => exec i s
  | .error _ => .next (s.raise .illegalCommand)

/-- `HostWrite(i, data)` (20_memory.md R31): the register write, and the launch where the register
is `CMD`. -/
def hostWrite (i : BitVec 3) (data : Word) (s : State) : Host.Outcome State Fault Refusal :=
  if portReg i = .cmd then execute (s.writeReg data .cmd)
  else .next (s.writeReg data (portReg i))

/-- `HostRead(i)` (20_memory.md R31): no register changes. -/
def hostRead (i : BitVec 3) (s : State) : Word := s.readReg (portReg i)

/-- The reset input (70_reset_and_hazards.md R160, 10_state.md R21): `STATUS` and `CMD` are 0, the six
data registers take unspecified patterns (notes/assumptions/2.md), no command is executed. The host's
own transactions are not the block's to drop (notes/assumptions/7.md).

DESIGN CHOICE, unsafe, notes/assumptions/19.md: the patterns are a function of the count `draws` alone,
so two instances, or two runs, whose counts are equal draw the SAME patterns. The spec leaves open
whether the patterns of two instances differ (R21, R152). -/
def hostReset (s : State) : State :=
  { s with
    a := Config.unspecified s.draws
    b := Config.unspecified (s.draws + 1)
    c := Config.unspecified (s.draws + 2)
    wl := Config.unspecified (s.draws + 3)
    wh := Config.unspecified (s.draws + 4)
    r := Config.unspecified (s.draws + 5)
    status := 0#32
    cmd := 0#32
    draws := s.draws + 6 }

/-- One transaction. `readData` is what it returns to the host: a datum for a read, nothing
otherwise. -/
def transact (t : HostTxn) (s : State) : Host.Outcome State Fault Refusal :=
  match t with
  | .write i data => hostWrite i data { s with readData := none }
  | .read i => .next { s with readData := some (hostRead i s) }
  | .reset => .next (hostReset { s with readData := none })

/-- The host issues one transaction more, after those already pending (20_memory.md R35). -/
def State.issue (s : State) (t : HostTxn) : State := { s with pending := s.pending ++ [t] }

/-- The host's next transaction becomes the write of `data` to `CMD`, before those already
pending. -/
def State.launchNext (s : State) (data : Word) : State :=
  { s with pending := .write (portIndex .cmd) data :: s.pending }

end Sys2Proof.Machine
end

