-- ==== Sys2Proof/Machine/Step.lean ====
section
/-! DEFINITION. One step is one transaction of the host's stream (spec/20_memory.md R33 to R35). -/

namespace Sys2Proof.Machine

/-- The next pending transaction is taken. With none pending the block is idle: nothing but the host
makes it step (00_scope.md R7, 10_state.md R17; notes/assumptions/5.md). -/
def step (s : State) : Host.Outcome State Fault Refusal :=
  match s.pending with
  | [] => .next s
  | t :: rest => transact t { s with pending := rest }

/-- The host writes that command word to `CMD` next: the block fetches nothing itself
(10_state.md R17; notes/assumptions/6.md). -/
def State.withFetchWord (s : State) (nbits w : Nat) : State :=
  s.launchNext (tableDatum nbits w)

end Sys2Proof.Machine
end

