-- ==== Sys2Proof/Machine/Circuits.lean ====
section
/-! DEFINITION. The ways the spec describes of FORMING a value beside the rule that defines it: the
sign-bit adder (spec/42_wideint.md R86), the four partial products (R87), the binary long division
(R88), the pattern test (R90), the split multiply and divide of the engine (spec/43_engine_add_mul.md
R110, spec/44_engine_div_sqrt_pow.md R125). No command uses them: they are here to be proved equal to
the rules. -/

namespace Sys2Proof.Machine

/-- The sign-bit circuit of ADD64W (R86): `W` and the flag. -/
def addCircuit (a b : Word) : Wide × Bool :=
  let lo := a + b
  let ovf := a.getLsbD 63 == b.getLsbD 63 && lo.getLsbD 63 != a.getLsbD 63
  let top := if ovf then a.getLsbD 63 else lo.getLsbD 63
  let hi : Word := if top then 0xFFFFFFFFFFFFFFFF#64 else 0#64
  ((hi ++ lo : BitVec (64 + 64)), ovf)

/-- The partial-product form of MUL64 (R87): low halves unsigned, high halves signed. -/
def mulPartialProducts (a b : Word) : Int :=
  let aL : Int := (a.extractLsb' 0 32).toNat
  let bL : Int := (b.extractLsb' 0 32).toNat
  let aH : Int := s32 (a.extractLsb' 32 32)
  let bH : Int := s32 (b.extractLsb' 32 32)
  aH * bH * 2 ^ 64 + (aH * bL + aL * bH) * 2 ^ 32 + aL * bL

/-- The long division's loop of R88 on the dividend's bits below `k`, highest first:
shift the next bit of `un` into the remainder, subtract the divisor where it fits. -/
def longDivFrom (un ud : Nat) : Nat → Nat → Nat → Nat × Nat
  | 0, uq, ur => (uq, ur)
  | k + 1, uq, ur =>
    let sh := 2 * ur + (un.testBit k).toNat
    if ud ≤ sh then longDivFrom un ud k (uq + 2 ^ k) (sh - ud)
    else longDivFrom un ud k uq sh

/-- The document's divider (R88): 128 iterations on the unsigned magnitudes, the sign of the quotient
applied afterward modulo `2^128`, the remainder with the sign of the dividend. -/
def longDivide (n d : Int) : Wide × Int :=
  let qr := longDivFrom n.natAbs d.natAbs 128 0 0
  let q : Wide := BitVec.ofNat 128 qr.1
  (if decide (n < 0) != decide (d < 0) then 0#128 - q else q,
   if n < 0 then -(qr.2 : Int) else (qr.2 : Int))

/-- The pattern form of WFITS (R90). -/
def wideFitsPattern (s : State) : Bool :=
  (s.wh == 0#64 && !s.wl.getLsbD 63) || (s.wh == 0xFFFFFFFFFFFFFFFF#64 && s.wl.getLsbD 63)

/-- The truncated quotient and remainder of `a·b/F` by integer and fractional parts (R110). -/
def splitMultiply (a b f : Int) : Int × Int :=
  let ai := a.tdiv f
  let af := a.tmod f
  let bi := b.tdiv f
  let bf := b.tmod f
  (ai * bi * f + ai * bf + af * bi + (af * bf).tdiv f, (af * bf).tmod f)

/-- The truncated quotient and remainder of `a·F/b` by integral and remainder parts (R125). -/
def splitDivide (a b f : Int) : Int × Int :=
  let q0 := a.tdiv b
  let r0 := a.tmod b
  (q0 * f + (r0 * f).tdiv b, (r0 * f).tmod b)

end Sys2Proof.Machine
end

