-- ==== Sys2Proof/Machine/Platform.lean ====
section
/-! DEFINITION. Several instances (spec/60_exceptions.md R152, spec/93_implementation_defined.md U4):
`NUM_CORES` copies of the block, each with its own registers and its own transaction stream. They
share only the constant tables, which are functions of the scale. -/

namespace Sys2Proof.Machine

/-- A platform has `NUM_CORES` instances. -/
def platformWf (cores : List State) : Prop := cores.length = Config.numCores

/-- Instance `k` takes a step; the others stand still. An index past the last names no instance and
nothing happens (notes/assumptions/12.md).

DESIGN CHOICE, unsafe, notes/assumptions/19.md: instances have no identifier (R152) and draw their reset
patterns from the one constant `Config.unspecified`, so instances with equal counts `draws` reset to
equal patterns, where the spec says nothing of the patterns of two instances together. -/
def platformStep (cores : List State) (k : Nat) : List State :=
  match cores[k]? with
  | none => cores
  | some s =>
    match step s with
    | .next t => cores.set k t
    | .fault _ => cores
    | .refused _ => cores

end Sys2Proof.Machine
end

