-- ==== Sys2Proof/Machine/Script.lean ====
section
/-! DEFINITION. The host transaction script of spec/30_encoding.md R55 and R56, as data: each line
stands for the transactions it abbreviates. -/

namespace Sys2Proof.Machine

/-- One line of a script. -/
inductive ScriptLine where
  /-- `wr <reg>, <value>`. -/
  | wr (reg : PortReg) (value : Int)
  /-- `wr W, <value128>`, the one pseudo-instruction (R56). -/
  | wrWide (value : Int)
  /-- `rd <reg>`. -/
  | rd (reg : PortReg)
  /-- `cmd <MNEMONIC> [s=] [rm=] [ov=]`. -/
  | cmd (i : Instr)
  deriving DecidableEq, Repr

/-- The triple of a `cmd` line with every field left out (R55). -/
def defaultEngine : Engine := { scale := 0#5, rm := .up, ov := .unchecked }

/-- The transactions of a line: a negative decimal stands for its two's-complement pattern (R55);
`wr W` writes `WL` and then `WH` (R56). -/
def assembleLine : ScriptLine → List HostTxn
  | .wr reg value => [.write (portIndex reg) (wrap64 value)]
  | .wrWide value =>
    [.write (portIndex .wl) ((wrap128 value).extractLsb' 0 64),
     .write (portIndex .wh) ((wrap128 value).extractLsb' 64 64)]
  | .rd reg => [.read (portIndex reg)]
  | .cmd i => [.write (portIndex .cmd) (commandDatum i)]

/-- The transactions of a script, in order. -/
def assembleScript (lines : List ScriptLine) : List HostTxn := lines.flatMap assembleLine

end Sys2Proof.Machine
end

