-- ==== Sys2Proof/Safety.lean ====
section
/-! DEFINITION. The terms the claims are stated in: what a correctly rounded result is, what each
command may read, write, raise and use by the tables of the spec (spec/10_state.md R16,
spec/30_encoding.md R53, spec/60_exceptions.md R140), and what a consistent `STATUS` is. Nothing here
is used by the machine. -/

namespace Sys2Proof

open Sys2Proof.Machine

/-! ### Correct rounding -/

/-- `x` is the real number `q` rounded to an integer under the mode `rm`: the meaning of the modes on
exact values (spec/41_rounding_and_overflow.md R70, R73, R74; S8 of spec/95_test_vectors.md), with no
quotient, remainder or increment in it. -/
def RoundsTo (rm : RoundingMode) (q : ℝ) (x : ℤ) : Prop :=
  match rm with
  | .up => |q| ≤ |(x : ℝ)| ∧ |(x : ℝ)| < |q| + 1 ∧ 0 ≤ q * x
  | .down => |(x : ℝ)| ≤ |q| ∧ |q| < |(x : ℝ)| + 1 ∧ 0 ≤ q * x
  | .ceiling => q ≤ x ∧ (x : ℝ) < q + 1
  | .floor => (x : ℝ) ≤ q ∧ q < x + 1
  | .halfUp => |q - x| < 1 / 2 ∨ (|q - x| = 1 / 2 ∧ |q| < |(x : ℝ)|)
  | .halfDown => |q - x| < 1 / 2 ∨ (|q - x| = 1 / 2 ∧ |(x : ℝ)| < |q|)
  | .halfEven => |q - x| < 1 / 2 ∨ (|q - x| = 1 / 2 ∧ Even x)
  | .unnecessary => q = x

/-- What a command that rounds the exact value `q` and then applies the overflow policy does
(spec/43_engine_add_mul.md R99; R75, R76): it completes with the rounded value where that fits or the
mode is UNCHECKED, and writes `STATUS` alone where it overflows in CHECKED mode or is not exact in
mode UNNECESSARY (whether it would fit or not: R147). -/
def RoundedCommand (i : Instr) (q : ℝ) (s : State) : Prop :=
  (∀ x : ℤ, RoundsTo i.engine.rm q x → (i.engine.ov = .unchecked ∨ fits64 x = true) →
    exec i s = .next { s with r := wrap64 x, status := if fits64 x then 0x00#32 else 0x02#32 }) ∧
  (∀ x : ℤ, RoundsTo i.engine.rm q x → i.engine.ov = .checked → fits64 x = false →
    exec i s = .next { s with status := 0x13#32 }) ∧
  (i.engine.rm = .unnecessary → (∀ x : ℤ, q ≠ x) →
    exec i s = .next { s with status := 0x21#32 })

/-- What a command does whose exact result is the integer `x`, with nothing to round
(spec/43_engine_add_mul.md R99, R75). -/
def ExactCommand (i : Instr) (x : ℤ) (s : State) : Prop :=
  ((i.engine.ov = .unchecked ∨ fits64 x = true) →
    exec i s = .next { s with r := wrap64 x, status := if fits64 x then 0x00#32 else 0x02#32 }) ∧
  (i.engine.ov = .checked → fits64 x = false → exec i s = .next { s with status := 0x13#32 })

/-- What a command does that rounds the exact value `q` to a result that always fits
(spec/43_engine_add_mul.md R99). -/
def RoundedFitCommand (i : Instr) (q : ℝ) (s : State) : Prop :=
  (∀ x : ℤ, RoundsTo i.engine.rm q x →
    fits64 x = true ∧ exec i s = .next { s with r := wrap64 x, status := 0x00#32 }) ∧
  (i.engine.rm = .unnecessary → (∀ x : ℤ, q ≠ x) →
    exec i s = .next { s with status := 0x21#32 })

/-- The scale factor `10^s` as a real number. -/
def realFactor (e : Engine) : ℝ := (10 : ℝ) ^ e.scale.toNat

/-- POW's chain of 64-bit values (spec/44_engine_div_sqrt_pow.md R122), as a relation: after the
leading bits of the exponent that spell `k`, the accumulator is `p` and the overflow flag `v`. Each
step is one rounded multiply, wrapped in UNCHECKED mode. -/
inductive PowChain (e : Engine) (a : ℤ) : ℕ → ℤ → Bool → Prop where
  /-- The highest bit: `p <- a`, no step. -/
  | start : PowChain e a 1 a false
  /-- A bit 0: a MUL of `p` by `p`. -/
  | square {k : ℕ} {p : ℤ} {v : Bool} (h : PowChain e a k p v) (x : ℤ)
      (hx : RoundsTo e.rm ((p : ℝ) * p / realFactor e) x)
      (ok : e.ov = .unchecked ∨ fits64 x = true) :
      PowChain e a (2 * k) (s64 (wrap64 x)) (v || !fits64 x)
  /-- A bit 1: after the square, a MUL of `p` by `a`. -/
  | multiply {k : ℕ} {p : ℤ} {v : Bool} (h : PowChain e a (2 * k) p v) (x : ℤ)
      (hx : RoundsTo e.rm ((p : ℝ) * a / realFactor e) x)
      (ok : e.ov = .unchecked ∨ fits64 x = true) :
      PowChain e a (2 * k + 1) (s64 (wrap64 x)) (v || !fits64 x)

/-! ### The tables of the spec, command by command -/

/-- The command writes `R` when it does not fault (spec/10_state.md R16). -/
def Instr.writesR : Instr → Bool
  | .nop _ => false
  | .sfget _ => true
  | .sfmaxi _ => true
  | .sfmini _ => true
  | .sfmul _ => true
  | .sfdiv _ => true
  | .sfmod _ => true
  | .rinc _ => true
  | .rincd _ => true
  | .add64w _ => false
  | .mul64 _ => false
  | .divw _ => true
  | .wneg _ => false
  | .wfits _ => true
  | .wisneg _ => true
  | .wsignum _ => true
  | .isqrt _ => true
  | .add _ => true
  | .sub _ => true
  | .mul _ => true
  | .mull _ => true
  | .mulp10 _ => true
  | .sqr _ => true
  | .avg _ => true
  | .abs _ => true
  | .neg _ => true
  | .div _ => true
  | .divl _ => true
  | .divp10 _ => true
  | .inv _ => true
  | .sqrt _ => true
  | .pow _ => true
  | .shl _ => true
  | .shr _ => true
  | .cmp _ => true
  | .sgn _ => true
  | .froml _ => true
  | .tol _ => true
  | .rescale _ => true

/-- The command writes `WL` and `WH` when it does not fault (spec/10_state.md R16). -/
def Instr.writesW : Instr → Bool
  | .nop _ => false
  | .sfget _ => false
  | .sfmaxi _ => false
  | .sfmini _ => false
  | .sfmul _ => false
  | .sfdiv _ => false
  | .sfmod _ => false
  | .rinc _ => false
  | .rincd _ => false
  | .add64w _ => true
  | .mul64 _ => true
  | .divw _ => true
  | .wneg _ => true
  | .wfits _ => false
  | .wisneg _ => false
  | .wsignum _ => false
  | .isqrt _ => true
  | .add _ => false
  | .sub _ => false
  | .mul _ => false
  | .mull _ => false
  | .mulp10 _ => false
  | .sqr _ => false
  | .avg _ => false
  | .abs _ => false
  | .neg _ => false
  | .div _ => false
  | .divl _ => false
  | .divp10 _ => false
  | .inv _ => false
  | .sqrt _ => false
  | .pow _ => false
  | .shl _ => false
  | .shr _ => false
  | .cmp _ => false
  | .sgn _ => false
  | .froml _ => false
  | .tol _ => false
  | .rescale _ => false

/-- The command uses the scale (spec/30_encoding.md R53). -/
def Instr.usesScale : Instr → Bool
  | .nop _ => false
  | .sfget _ => true
  | .sfmaxi _ => true
  | .sfmini _ => true
  | .sfmul _ => true
  | .sfdiv _ => true
  | .sfmod _ => true
  | .rinc _ => false
  | .rincd _ => false
  | .add64w _ => false
  | .mul64 _ => false
  | .divw _ => false
  | .wneg _ => false
  | .wfits _ => false
  | .wisneg _ => false
  | .wsignum _ => false
  | .isqrt _ => false
  | .add _ => false
  | .sub _ => false
  | .mul _ => true
  | .mull _ => false
  | .mulp10 _ => false
  | .sqr _ => true
  | .avg _ => false
  | .abs _ => false
  | .neg _ => false
  | .div _ => true
  | .divl _ => false
  | .divp10 _ => false
  | .inv _ => true
  | .sqrt _ => true
  | .pow _ => true
  | .shl _ => false
  | .shr _ => false
  | .cmp _ => false
  | .sgn _ => false
  | .froml _ => true
  | .tol _ => true
  | .rescale _ => true

/-- The command uses the rounding mode (spec/30_encoding.md R53). -/
def Instr.usesRm : Instr → Bool
  | .nop _ => false
  | .sfget _ => false
  | .sfmaxi _ => false
  | .sfmini _ => false
  | .sfmul _ => false
  | .sfdiv _ => false
  | .sfmod _ => false
  | .rinc _ => true
  | .rincd _ => true
  | .add64w _ => false
  | .mul64 _ => false
  | .divw _ => false
  | .wneg _ => false
  | .wfits _ => false
  | .wisneg _ => false
  | .wsignum _ => false
  | .isqrt _ => false
  | .add _ => false
  | .sub _ => false
  | .mul _ => true
  | .mull _ => false
  | .mulp10 _ => true
  | .sqr _ => true
  | .avg _ => true
  | .abs _ => false
  | .neg _ => false
  | .div _ => true
  | .divl _ => true
  | .divp10 _ => true
  | .inv _ => true
  | .sqrt _ => true
  | .pow _ => true
  | .shl _ => true
  | .shr _ => true
  | .cmp _ => false
  | .sgn _ => false
  | .froml _ => false
  | .tol _ => true
  | .rescale _ => true

/-- The command uses the overflow mode (spec/30_encoding.md R53). -/
def Instr.usesOv : Instr → Bool
  | .nop _ => false
  | .sfget _ => false
  | .sfmaxi _ => false
  | .sfmini _ => false
  | .sfmul _ => false
  | .sfdiv _ => false
  | .sfmod _ => false
  | .rinc _ => false
  | .rincd _ => false
  | .add64w _ => false
  | .mul64 _ => false
  | .divw _ => false
  | .wneg _ => false
  | .wfits _ => false
  | .wisneg _ => false
  | .wsignum _ => false
  | .isqrt _ => false
  | .add _ => true
  | .sub _ => true
  | .mul _ => true
  | .mull _ => true
  | .mulp10 _ => true
  | .sqr _ => true
  | .avg _ => false
  | .abs _ => true
  | .neg _ => true
  | .div _ => true
  | .divl _ => true
  | .divp10 _ => true
  | .inv _ => true
  | .sqrt _ => false
  | .pow _ => true
  | .shl _ => true
  | .shr _ => true
  | .cmp _ => false
  | .sgn _ => false
  | .froml _ => true
  | .tol _ => false
  | .rescale _ => true

/-- The command can raise DIVISION_BY_ZERO (spec/60_exceptions.md R140). -/
def Instr.mayDivideByZero : Instr → Bool
  | .nop _ => false
  | .sfget _ => false
  | .sfmaxi _ => false
  | .sfmini _ => false
  | .sfmul _ => false
  | .sfdiv _ => false
  | .sfmod _ => false
  | .rinc _ => false
  | .rincd _ => false
  | .add64w _ => false
  | .mul64 _ => false
  | .divw _ => true
  | .wneg _ => false
  | .wfits _ => false
  | .wisneg _ => false
  | .wsignum _ => false
  | .isqrt _ => false
  | .add _ => false
  | .sub _ => false
  | .mul _ => false
  | .mull _ => false
  | .mulp10 _ => false
  | .sqr _ => false
  | .avg _ => false
  | .abs _ => false
  | .neg _ => false
  | .div _ => true
  | .divl _ => true
  | .divp10 _ => false
  | .inv _ => true
  | .sqrt _ => false
  | .pow _ => true
  | .shl _ => false
  | .shr _ => false
  | .cmp _ => false
  | .sgn _ => false
  | .froml _ => false
  | .tol _ => false
  | .rescale _ => false

/-- The command can raise INVALID_ARGUMENT (spec/60_exceptions.md R140). -/
def Instr.mayBeInvalid : Instr → Bool
  | .nop _ => false
  | .sfget _ => false
  | .sfmaxi _ => false
  | .sfmini _ => false
  | .sfmul _ => false
  | .sfdiv _ => false
  | .sfmod _ => false
  | .rinc _ => true
  | .rincd _ => true
  | .add64w _ => false
  | .mul64 _ => false
  | .divw _ => false
  | .wneg _ => false
  | .wfits _ => false
  | .wisneg _ => false
  | .wsignum _ => false
  | .isqrt _ => true
  | .add _ => false
  | .sub _ => false
  | .mul _ => false
  | .mull _ => false
  | .mulp10 _ => false
  | .sqr _ => false
  | .avg _ => false
  | .abs _ => false
  | .neg _ => false
  | .div _ => false
  | .divl _ => false
  | .divp10 _ => false
  | .inv _ => false
  | .sqrt _ => true
  | .pow _ => false
  | .shl _ => false
  | .shr _ => false
  | .cmp _ => false
  | .sgn _ => false
  | .froml _ => false
  | .tol _ => false
  | .rescale _ => false

/-- The command sets `V` whatever the overflow mode (spec/40_scale_metrics.md R64, spec/42_wideint.md R85). -/
def Instr.flagsSilently : Instr → Bool
  | .nop _ => false
  | .sfget _ => false
  | .sfmaxi _ => false
  | .sfmini _ => false
  | .sfmul _ => true
  | .sfdiv _ => false
  | .sfmod _ => false
  | .rinc _ => false
  | .rincd _ => false
  | .add64w _ => true
  | .mul64 _ => true
  | .divw _ => true
  | .wneg _ => true
  | .wfits _ => false
  | .wisneg _ => false
  | .wsignum _ => false
  | .isqrt _ => true
  | .add _ => false
  | .sub _ => false
  | .mul _ => false
  | .mull _ => false
  | .mulp10 _ => false
  | .sqr _ => false
  | .avg _ => false
  | .abs _ => false
  | .neg _ => false
  | .div _ => false
  | .divl _ => false
  | .divp10 _ => false
  | .inv _ => false
  | .sqrt _ => false
  | .pow _ => false
  | .shl _ => false
  | .shr _ => false
  | .cmp _ => false
  | .sgn _ => false
  | .froml _ => false
  | .tol _ => false
  | .rescale _ => false

/-- Which commands can raise which cause, by the "raised by" column of spec/60_exceptions.md R140,
and in which modes (R142, R143). The commands that raise OVERFLOW are those that use `ov`, and those
that raise ROUNDING_REQUIRED are those that use `rm` (R140 against spec/30_encoding.md R53). No command
raises ILLEGAL_COMMAND: the decoder does. -/
def Instr.mayRaise (i : Instr) : Cause → Prop
  | .overflow => i.usesOv = true ∧ i.engine.ov = .checked
  | .roundingRequired => i.usesRm = true ∧ i.engine.rm = .unnecessary
  | .divisionByZero => i.mayDivideByZero = true
  | .invalidArgument => i.mayBeInvalid = true
  | .illegalCommand => False

/-- The commands that can end with `V = 1` and no fault: those that use `ov`, in mode UNCHECKED, and
those that report through `V` alone (spec/60_exceptions.md R142). -/
def Instr.mayFlag (i : Instr) : Prop :=
  (i.usesOv = true ∧ i.engine.ov = .unchecked) ∨ i.flagsSilently = true

/-- The same command with another triple. -/
def Instr.withEngine : Instr → Engine → Instr
  | .nop _, e => .nop e
  | .sfget _, e => .sfget e
  | .sfmaxi _, e => .sfmaxi e
  | .sfmini _, e => .sfmini e
  | .sfmul _, e => .sfmul e
  | .sfdiv _, e => .sfdiv e
  | .sfmod _, e => .sfmod e
  | .rinc _, e => .rinc e
  | .rincd _, e => .rincd e
  | .add64w _, e => .add64w e
  | .mul64 _, e => .mul64 e
  | .divw _, e => .divw e
  | .wneg _, e => .wneg e
  | .wfits _, e => .wfits e
  | .wisneg _, e => .wisneg e
  | .wsignum _, e => .wsignum e
  | .isqrt _, e => .isqrt e
  | .add _, e => .add e
  | .sub _, e => .sub e
  | .mul _, e => .mul e
  | .mull _, e => .mull e
  | .mulp10 _, e => .mulp10 e
  | .sqr _, e => .sqr e
  | .avg _, e => .avg e
  | .abs _, e => .abs e
  | .neg _, e => .neg e
  | .div _, e => .div e
  | .divl _, e => .divl e
  | .divp10 _, e => .divp10 e
  | .inv _, e => .inv e
  | .sqrt _, e => .sqrt e
  | .pow _, e => .pow e
  | .shl _, e => .shl e
  | .shr _, e => .shr e
  | .cmp _, e => .cmp e
  | .sgn _, e => .sgn e
  | .froml _, e => .froml e
  | .tol _, e => .tol e
  | .rescale _, e => .rescale e

/-- Two states agree on the registers a command reads (spec/10_state.md R16; of `B` only `B[31:0]`
for an `i32` argument and only `B[5:0]` for RINCD). -/
def agreeOnReads (i : Instr) (s t : State) : Prop :=
  match i with
  | .nop _ => True
  | .sfget _ => True
  | .sfmaxi _ => True
  | .sfmini _ => True
  | .sfmul _ => s.a = t.a
  | .sfdiv _ => s.a = t.a
  | .sfmod _ => s.a = t.a
  | .rinc _ => s.a = t.a ∧ s.b = t.b ∧ s.c = t.c
  | .rincd _ => s.a = t.a ∧ s.b.extractLsb' 0 6 = t.b.extractLsb' 0 6
  | .add64w _ => s.a = t.a ∧ s.b = t.b
  | .mul64 _ => s.a = t.a ∧ s.b = t.b
  | .divw _ => s.wl = t.wl ∧ s.wh = t.wh ∧ s.b = t.b
  | .wneg _ => s.wl = t.wl ∧ s.wh = t.wh
  | .wfits _ => s.wl = t.wl ∧ s.wh = t.wh
  | .wisneg _ => s.wl = t.wl ∧ s.wh = t.wh
  | .wsignum _ => s.wl = t.wl ∧ s.wh = t.wh
  | .isqrt _ => s.wl = t.wl ∧ s.wh = t.wh
  | .add _ => s.a = t.a ∧ s.b = t.b
  | .sub _ => s.a = t.a ∧ s.b = t.b
  | .mul _ => s.a = t.a ∧ s.b = t.b
  | .mull _ => s.a = t.a ∧ s.b = t.b
  | .mulp10 _ => s.a = t.a ∧ s.b.extractLsb' 0 32 = t.b.extractLsb' 0 32
  | .sqr _ => s.a = t.a
  | .avg _ => s.a = t.a ∧ s.b = t.b
  | .abs _ => s.a = t.a
  | .neg _ => s.a = t.a
  | .div _ => s.a = t.a ∧ s.b = t.b
  | .divl _ => s.a = t.a ∧ s.b = t.b
  | .divp10 _ => s.a = t.a ∧ s.b.extractLsb' 0 32 = t.b.extractLsb' 0 32
  | .inv _ => s.a = t.a
  | .sqrt _ => s.a = t.a
  | .pow _ => s.a = t.a ∧ s.b.extractLsb' 0 32 = t.b.extractLsb' 0 32
  | .shl _ => s.a = t.a ∧ s.b.extractLsb' 0 32 = t.b.extractLsb' 0 32
  | .shr _ => s.a = t.a ∧ s.b.extractLsb' 0 32 = t.b.extractLsb' 0 32
  | .cmp _ => s.a = t.a ∧ s.b = t.b
  | .sgn _ => s.a = t.a
  | .froml _ => s.a = t.a
  | .tol _ => s.a = t.a
  | .rescale _ => s.a = t.a ∧ s.b.extractLsb' 0 32 = t.b.extractLsb' 0 32

/-! ### A consistent `STATUS` -/

/-- `STATUS` is a report the command in `CMD` can have made: ILLEGAL_COMMAND for a word that does not
decode (spec/30_encoding.md R52), else success, success with `V`, or a fault the command can raise
in its modes (spec/10_state.md R14, R18; spec/60_exceptions.md R140, R142, R143). -/
def StatusExplained (s : State) : Prop :=
  match decode s.cmd with
  | .error _ => s.status = 0x51#32
  | .ok i =>
    s.status = 0x00#32 ∨ (s.status = 0x02#32 ∧ i.mayFlag) ∨
    (s.status = 0x13#32 ∧ i.mayRaise .overflow) ∨
    (s.status = 0x21#32 ∧ i.mayRaise .roundingRequired) ∨
    (s.status = 0x31#32 ∧ i.mayRaise .divisionByZero) ∨
    (s.status = 0x41#32 ∧ i.mayRaise .invalidArgument)

/-- A step is safe: it answers a next state, and what `STATUS` says there is consistent. -/
def SafeStep (s : State) : Prop := ∃ t, step s = .next t ∧ StatusExplained t

end Sys2Proof
end

