-- ==== Sys2Proof/Certificates/Slice0/Obligations.lean ====
section
/-! DEFINITION. What the provers are asked to prove of the machine: statements read from the numbered
rules of spec/. An equation `exec i s = .next { s with ... }` is also the instruction's frame: every
field not named in it, the other registers and the host's stream included, is as it was. There is no
memory to frame (spec/20_memory.md R30). Statements about a command hold for every triple, also for
scales no word can carry, unless they say `e.wf`. -/

open Sys2Proof Sys2Proof.Machine

/-! ### Encoding (spec/30_encoding.md) -/

/-- Decoding the word of a well-formed command gives the command back, with its whole triple. -/
def Obligations.DecodeOfEncode : Prop :=
  ∀ i : Instr, i.wf = true → decode (encode i) = .ok i

/-- Every word that decodes is the word of the command it decodes to, and that command is
well-formed: no two words are one command, and no bit of a word is dropped. -/
def Obligations.EncodeOfDecode : Prop :=
  ∀ (w : Word32) (i : Instr), decode w = .ok i → i.wf = true ∧ encode i = w

/-- R47: a word is legal exactly when its reserved bits are 0, its scale is at most 18 and its opcode
is one of the 39 of R50; and the command then has the word's opcode and triple. -/
def Obligations.LegalWordsExactly : Prop :=
  ∀ w : Word32,
    ((∃ i, decode w = .ok i) ↔
      w.toNat / 2 ^ 17 = 0 ∧ w.toNat / 2 ^ 8 % 2 ^ 5 ≤ 18 ∧
      w.toNat % 2 ^ 8 ∈ [0x00, 0x10, 0x11, 0x12, 0x13, 0x14, 0x15, 0x20, 0x21, 0x30, 0x31, 0x32, 0x33,
        0x34, 0x35, 0x36, 0x37, 0x40, 0x41, 0x42, 0x43, 0x44, 0x45, 0x46, 0x47, 0x48, 0x50, 0x51, 0x52,
        0x53, 0x54, 0x55, 0x56, 0x57, 0x60, 0x61, 0x62, 0x63, 0x64]) ∧
    (∀ i, decode w = .ok i →
      i.opcode.toNat = w.toNat % 2 ^ 8 ∧ i.engine.scale.toNat = w.toNat / 2 ^ 8 % 2 ^ 5 ∧
      (roundingModeCode i.engine.rm).toNat = w.toNat / 2 ^ 13 % 2 ^ 3 ∧
      (overflowModeCode i.engine.ov).toNat = w.toNat / 2 ^ 16 % 2)

/-- R46, R48, R49, R50: the word `op | (s << 8) | (rm << 13) | (ov << 16)` is the command the opcode
table gives for `op`, with that triple, for each of the 39 rows and the codes of the modes. -/
def Obligations.OpcodeMapDecodes : Prop :=
  (∀ (e : Engine) (rm ov : Nat), e.wf = true →
    (rm, e.rm) ∈ [(0, RoundingMode.up), (1, .down), (2, .ceiling), (3, .floor), (4, .halfUp),
      (5, .halfDown), (6, .halfEven), (7, .unnecessary)] →
    (ov, e.ov) ∈ [(0, OverflowMode.unchecked), (1, .checked)] →
    ∀ (op : Nat) (i : Instr),
      (op, i) ∈ [(0x00, Instr.nop e), (0x10, .sfget e), (0x11, .sfmaxi e), (0x12, .sfmini e),
        (0x13, .sfmul e), (0x14, .sfdiv e), (0x15, .sfmod e), (0x20, .rinc e), (0x21, .rincd e),
        (0x30, .add64w e), (0x31, .mul64 e), (0x32, .divw e), (0x33, .wneg e), (0x34, .wfits e),
        (0x35, .wisneg e), (0x36, .wsignum e), (0x37, .isqrt e), (0x40, .add e), (0x41, .sub e),
        (0x42, .mul e), (0x43, .mull e), (0x44, .mulp10 e), (0x45, .sqr e), (0x46, .avg e),
        (0x47, .abs e), (0x48, .neg e), (0x50, .div e), (0x51, .divl e), (0x52, .divp10 e),
        (0x53, .inv e), (0x54, .sqrt e), (0x55, .pow e), (0x56, .shl e), (0x57, .shr e),
        (0x60, .cmp e), (0x61, .sgn e), (0x62, .froml e), (0x63, .tol e), (0x64, .rescale e)] →
      decode (BitVec.ofNat 32 (op ||| (e.scale.toNat <<< 8) ||| (rm <<< 13) ||| (ov <<< 16))) = .ok i)

/-- Words of spec/95_test_vectors.md section 2.1 decode to the commands written beside them there. -/
def Obligations.SampleWordsDecode : Prop :=
  decode 0x00018450#32 = .ok (.div ⟨4#5, .halfUp, .checked⟩) ∧
  decode 0x0001F242#32 = .ok (.mul ⟨18#5, .unnecessary, .checked⟩) ∧
  decode 0x00001210#32 = .ok (.sfget ⟨18#5, .up, .unchecked⟩) ∧
  decode 0x0000C020#32 = .ok (.rinc ⟨0#5, .halfEven, .unchecked⟩) ∧
  decode 0x00006954#32 = .ok (.sqrt ⟨9#5, .floor, .unchecked⟩) ∧
  decode 0x00018464#32 = .ok (.rescale ⟨4#5, .halfUp, .checked⟩) ∧
  decode 0x00000037#32 = .ok (.isqrt ⟨0#5, .up, .unchecked⟩) ∧
  decode 0x00020000#32 = .error .reservedBits ∧
  decode 0x00001300#32 = .error .scaleTooLarge ∧
  decode 0x00000016#32 = .error .unknownOpcode

/-! ### The port, steps and reset (spec/20_memory.md, spec/70_reset_and_hazards.md) -/

/-- A step runs the decoded instruction: when the host's next transaction writes a legal word to
`CMD`, the step is `exec` of that command, after the word stands in `CMD`, the transaction is gone
from the stream and nothing has been returned to the host. -/
def Obligations.StepRunsDecodedCommand : Prop :=
  ∀ (s : State) (data : Word) (rest : List HostTxn) (i : Instr),
    s.pending = .write 7#3 data :: rest → decode (data.extractLsb' 0 32) = .ok i →
    step s = exec i { s with pending := rest, readData := none, cmd := data.extractLsb' 0 32 }

/-- R52: writing to `CMD` a word with a reserved bit, a scale above 18 or an opcode outside the table
raises ILLEGAL_COMMAND: `STATUS` is `0x51`, `CMD` holds the word, nothing else is written. -/
def Obligations.IllegalWordFaults : Prop :=
  ∀ (s : State) (data : Word),
    ((data.toNat / 2 ^ 17) % 2 ^ 15 ≠ 0 ∨ 18 < data.toNat / 2 ^ 8 % 2 ^ 5 ∨
      data.toNat % 2 ^ 8 ∉ [0x00, 0x10, 0x11, 0x12, 0x13, 0x14, 0x15, 0x20, 0x21, 0x30, 0x31, 0x32,
        0x33, 0x34, 0x35, 0x36, 0x37, 0x40, 0x41, 0x42, 0x43, 0x44, 0x45, 0x46, 0x47, 0x48, 0x50, 0x51,
        0x52, 0x53, 0x54, 0x55, 0x56, 0x57, 0x60, 0x61, 0x62, 0x63, 0x64]) →
    hostWrite 7#3 data s = .next { s with cmd := data.extractLsb' 0 32, status := 0x51#32 }

/-- R31: the two transactions, index by index. A write to 0..4 writes that register, to 5 or 6 does
nothing, to 7 writes `CMD` and executes it; a read returns the register, `STATUS` and `CMD`
zero-extended. -/
def Obligations.PortTransactions : Prop :=
  ∀ (s : State) (d : Word),
    hostWrite 0#3 d s = .next { s with a := d } ∧
    hostWrite 1#3 d s = .next { s with b := d } ∧
    hostWrite 2#3 d s = .next { s with c := d } ∧
    hostWrite 3#3 d s = .next { s with wl := d } ∧
    hostWrite 4#3 d s = .next { s with wh := d } ∧
    hostWrite 5#3 d s = .next s ∧
    hostWrite 6#3 d s = .next s ∧
    hostWrite 7#3 d s = execute { s with cmd := d.extractLsb' 0 32 } ∧
    hostRead 0#3 s = s.a ∧ hostRead 1#3 s = s.b ∧ hostRead 2#3 s = s.c ∧
    hostRead 3#3 s = s.wl ∧ hostRead 4#3 s = s.wh ∧ hostRead 5#3 s = s.r ∧
    (hostRead 6#3 s).toNat = s.status.toNat ∧ (hostRead 7#3 s).toNat = s.cmd.toNat

/-- A step takes the host's next transaction: a write is `hostWrite`, a read returns what `hostRead`
reads and changes no register; with none pending the block idles. That the host's stream and what a
read returned stand in the state is the model's choice (notes/assumptions/3.md, 4.md, 5.md). -/
def Obligations.StepTakesNextTransaction : Prop :=
  ∀ (s : State) (i : BitVec 3) (d : Word) (rest : List HostTxn),
    (s.pending = .write i d :: rest →
      step s = hostWrite i d { s with pending := rest, readData := none }) ∧
    (s.pending = .read i :: rest →
      step s = .next { s with pending := rest, readData := some (hostRead i s) }) ∧
    (s.pending = [] → step s = .next s)

/-- R160: the reset input clears `STATUS` and `CMD`, the `fault` output is low, and no command is
executed (`STATUS` and `CMD` are 0 whatever `CMD` held). Nothing is said of the six data registers,
which the spec leaves unspecified; that the host's stream is kept is the model's choice
(notes/assumptions/7.md). -/
def Obligations.ResetInputClears : Prop :=
  ∀ (s : State) (rest : List HostTxn), s.pending = .reset :: rest →
    ∃ t, step s = .next t ∧ t.status = 0#32 ∧ t.cmd = 0#32 ∧ t.faultLine = false ∧ t.pending = rest

/-- The invariant `StatusExplained` holds right after reset, where `STATUS` and `CMD` are 0 and the
`fault` output is low (R21, R160). -/
def Obligations.ResetStatusExplained : Prop :=
  State.reset.status = 0#32 ∧ State.reset.cmd = 0#32 ∧ State.reset.faultLine = false ∧
  StatusExplained State.reset

/-- The invariant every step keeps: `STATUS` stays a report that the command in `CMD` can have made
in its modes, and is ILLEGAL_COMMAND exactly for a word that does not decode. -/
def Obligations.StatusStaysExplained : Prop :=
  ∀ s t : State, StatusExplained s → step s = .next t → StatusExplained t

/-- From every state with a consistent `STATUS`, with any stream of transactions pending, any number
of steps runs to its end, with a consistent `STATUS` there: no command and no fault stops the block
(R33, R150). -/
def Obligations.RunsNeverStop : Prop :=
  ∀ s : State, StatusExplained s → ∀ k : Nat,
    ∃ t : State, Host.Core.run Sys2Proof.core k s = .next t ∧ StatusExplained t

/-- R35: transactions take effect one at a time in issue order. What the first ones do does not depend
on the ones issued after them. The clause `t.pending = ys`, that those are left pending, also across a
`.reset` among the first, is the model's choice: the host's stream stands in the state
(notes/assumptions/3.md) and a reset keeps it (notes/assumptions/7.md). Where the first ones hold a
`.reset`, that the two runs agree on the unspecified registers is the model's choice too: both draw the
same patterns (notes/assumptions/19.md). -/
def Obligations.LaterTransactionsWait : Prop :=
  ∀ (s t : State) (xs ys : List HostTxn),
    Host.Core.run Sys2Proof.core xs.length { s with pending := xs ++ ys } = .next t →
    t.pending = ys ∧
    Host.Core.run Sys2Proof.core xs.length { s with pending := xs } = .next { t with pending := [] }

/-- Every command, in every state, answers a next state, and so does every step: there is no stop in
the machine (R33: every command terminates; R150: a fault does not stop the block). -/
def Obligations.EveryStepAnswers : Prop :=
  (∀ (i : Instr) (s : State), ∃ t, exec i s = .next t) ∧ (∀ s : State, ∃ t, step s = .next t)

/-- R56: `wr W, v` stands for the two lines `wr WL, v mod 2^64` and `wr WH, floor(v / 2^64) mod 2^64`,
in that order; together they leave the 128-bit pattern of `v` in the accumulator. -/
def Obligations.WideWritePseudo : Prop :=
  ∀ v : ℤ,
    assembleLine (.wrWide v) =
      assembleLine (.wr .wl (v % 2 ^ 64)) ++ assembleLine (.wr .wh (v / 2 ^ 64 % 2 ^ 64)) ∧
    ∀ s : State, ∃ dl dh t u,
      assembleLine (.wrWide v) = [.write 3#3 dl, .write 4#3 dh] ∧
      hostWrite 3#3 dl s = .next t ∧ hostWrite 4#3 dh t = .next u ∧
      u = { s with wl := dl, wh := dh } ∧ u.wide = wrap128 v

/-- R152: instances share nothing. A step of instance `k` leaves every other instance as it was, keeps
their number, and does to instance `k` what a step of it alone does. -/
def Obligations.InstancesAreIsolated : Prop :=
  ∀ (cores : List State) (k : Nat),
    (platformStep cores k).length = cores.length ∧
    (∀ j, j ≠ k → (platformStep cores k)[j]? = cores[j]?) ∧
    (∀ s t, cores[k]? = some s → step s = .next t → (platformStep cores k)[k]? = some t)

/-! ### Rules over all commands (spec/10_state.md, spec/60_exceptions.md) -/

/-- R11, R15 and the "writes" column of R16: a command changes at most `R`, `WL`, `WH` and `STATUS`,
and of `R` and `W` only what its row lists. -/
def Obligations.WritesFollowTable : Prop :=
  ∀ (i : Instr) (s t : State), exec i s = .next t →
    t = { s with wl := t.wl, wh := t.wh, r := t.r, status := t.status } ∧
    (i.writesR = false → t.r = s.r) ∧ (i.writesW = false → t.wl = s.wl ∧ t.wh = s.wh)

/-- R141: executing the word in `CMD`, where it faults, writes `STATUS` with `ERR = 1`, one of the five
causes and `V = 1` for OVERFLOW alone, every other bit 0; and it writes no other register. -/
def Obligations.FaultWritesStatusOnly : Prop :=
  ∀ s t : State, execute s = .next t → statusErr t.status = true →
    t = { s with status := t.status } ∧
    ∃ c ∈ [1, 2, 3, 4, 5], t.status.toNat = 1 + (if c = 1 then 2 else 0) + 16 * c

/-- R14, R18 and the table of R140: what `STATUS` can be after a command, and which commands, in
which modes, can leave which word. In particular OVERFLOW comes only in mode CHECKED,
ROUNDING_REQUIRED only in mode UNNECESSARY, and no command raises ILLEGAL_COMMAND. -/
def Obligations.FaultsFollowCauseTable : Prop :=
  ∀ (i : Instr) (s t : State), exec i s = .next t →
    t.status = 0x00#32 ∨ (t.status = 0x02#32 ∧ i.mayFlag) ∨
    (t.status = 0x13#32 ∧ i.mayRaise .overflow) ∨
    (t.status = 0x21#32 ∧ i.mayRaise .roundingRequired) ∨
    (t.status = 0x31#32 ∧ i.mayRaise .divisionByZero) ∨
    (t.status = 0x41#32 ∧ i.mayRaise .invalidArgument)

/-- R22: the outcome of a command depends on the registers it reads and on nothing else, not on
`STATUS`, `R`, `CMD`, the host's stream or an operand bit that is ignored; and it changes `STATUS` and
the registers its row of R16 lists under "writes", and nothing else. -/
def Obligations.ResultDependsOnReads : Prop :=
  ∀ (i : Instr) (s₁ s₂ t₁ t₂ : State), agreeOnReads i s₁ s₂ →
    exec i s₁ = .next t₁ → exec i s₂ = .next t₂ →
    t₁ = { s₁ with wl := t₁.wl, wh := t₁.wh, r := t₁.r, status := t₁.status } ∧
    (i.writesR = false → t₁.r = s₁.r) ∧ (i.writesW = false → t₁.wl = s₁.wl ∧ t₁.wh = s₁.wh) ∧
    t₁.status = t₂.status ∧
    (statusErr t₁.status = false →
      (i.writesR = true → t₁.r = t₂.r) ∧ (i.writesW = true → t₁.wl = t₂.wl ∧ t₁.wh = t₂.wh))

/-- R53: a field of the triple that a command does not use does not change what it does. -/
def Obligations.UnusedFieldsIgnored : Prop :=
  ∀ (i : Instr) (e₁ e₂ : Engine) (s : State),
    (i.usesScale = true → e₁.scale = e₂.scale) → (i.usesRm = true → e₁.rm = e₂.rm) →
    (i.usesOv = true → e₁.ov = e₂.ov) →
    exec (i.withEngine e₁) s = exec (i.withEngine e₂) s

/-! ### Rounding (spec/41_rounding_and_overflow.md) -/

/-- R74: `ROUNDQ` is the correctly rounded quotient, for every dividend and every non-zero divisor,
and raises ROUNDING_REQUIRED exactly in mode UNNECESSARY on a quotient that is no integer. -/
def Obligations.RoundqIsReference : Prop :=
  ∀ (rm : RoundingMode) (n d : ℤ), d ≠ 0 →
    (∀ x : ℤ, roundq rm n d = .ok x ↔ RoundsTo rm ((n : ℝ) / d) x) ∧
    (∀ c : Cause, roundq rm n d = .error c ↔
      c = .roundingRequired ∧ rm = .unnecessary ∧ ∀ x : ℤ, (n : ℝ) / d ≠ x)

/-- The rounding the statements speak of is a function: every mode but UNNECESSARY rounds every real
number to exactly one integer, and UNNECESSARY rounds the integers to themselves alone. -/
def Obligations.EveryModeRoundsOnce : Prop :=
  ∀ (rm : RoundingMode) (q : ℝ),
    (rm ≠ .unnecessary → ∃! x : ℤ, RoundsTo rm q x) ∧
    (rm = .unnecessary → ∀ x : ℤ, RoundsTo rm q x ↔ q = x)

/-- R71, R72: the increment is -1, 0 or +1; it moves the truncated quotient away from zero or keeps
it, never across zero; and a non-zero increment has the sign of the true quotient. -/
def Obligations.IncrementMovesAway : Prop :=
  ∀ (rm : RoundingMode) (n d i : ℤ), d ≠ 0 → inc rm (n.tdiv d) (n.tmod d) d = .ok i →
    (i = -1 ∨ i = 0 ∨ i = 1) ∧ |n.tdiv d| ≤ |n.tdiv d + i| ∧ 0 ≤ n.tdiv d * i ∧
    (i ≠ 0 → i = (n * d).sign)

/-- R73: away from the midpoint the three HALF modes agree, with the increment above it and without it
below; at the midpoint, which needs an even divisor, HALF_UP moves away from zero, HALF_DOWN keeps the
truncated quotient, and HALF_EVEN gives the even one of the two. -/
def Obligations.HalfModesAtMidpoint : Prop :=
  ∀ n d : ℤ, d ≠ 0 →
    (2 * |n.tmod d| < |d| → ∀ rm ∈ [RoundingMode.halfUp, .halfDown, .halfEven],
      roundq rm n d = .ok (n.tdiv d)) ∧
    (|d| < 2 * |n.tmod d| → ∀ rm ∈ [RoundingMode.halfUp, .halfDown, .halfEven],
      roundq rm n d = .ok (n.tdiv d + (n * d).sign)) ∧
    (2 * |n.tmod d| = |d| →
      Even d ∧
      roundq .halfUp n d = .ok (n.tdiv d + (n * d).sign) ∧
      roundq .halfDown n d = .ok (n.tdiv d) ∧
      (Odd (n.tdiv d) → roundq .halfEven n d = .ok (n.tdiv d + (n * d).sign)) ∧
      (Even (n.tdiv d) → roundq .halfEven n d = .ok (n.tdiv d)) ∧
      ∀ x, roundq .halfEven n d = .ok x → Even x)

/-- R75: `POLICY`. What fits is returned as it is with `V = 0`; what does not raises OVERFLOW in CHECKED
mode and gives its low 64 bits with `V = 1` in UNCHECKED mode. `I64MIN` fits (C1). -/
def Obligations.PolicyWrapsOrRaises : Prop :=
  ∀ (ov : OverflowMode) (x : ℤ),
    (-2 ^ 63 ≤ x ∧ x ≤ 2 ^ 63 - 1 → policy ov x = .ok (wrap64 x, false) ∧ s64 (wrap64 x) = x) ∧
    (x < -2 ^ 63 ∨ 2 ^ 63 - 1 < x →
      (ov = .checked → policy ov x = .error .overflow) ∧
      (ov = .unchecked → policy ov x = .ok (wrap64 x, true) ∧ ((wrap64 x).toNat : ℤ) = x % 2 ^ 64))

/-- R78: RINC. Outside its precondition it raises INVALID_ARGUMENT in every mode. Inside it, the
increment is the fraction `r/d` rounded to an integer, except that HALF_EVEN at the midpoint of an odd
truncated value moves away from zero; UNNECESSARY with a non-zero remainder raises
ROUNDING_REQUIRED. -/
def Obligations.RincSelectsIncrement : Prop :=
  ∀ (e : Engine) (s : State),
    (Instr.rinc e).opcode = 0x20#8 ∧
    ((s64 s.c = 0 ∨ |s64 s.c| ≤ |s64 s.b|) →
      exec (.rinc e) s = .next { s with status := 0x41#32 }) ∧
    (s64 s.c ≠ 0 → |s64 s.b| < |s64 s.c| →
      (∀ i : ℤ, RoundsTo e.rm ((s64 s.b : ℝ) / s64 s.c) i →
        ¬(e.rm = .halfEven ∧ 2 * |s64 s.b| = |s64 s.c| ∧ Odd (s64 s.a)) →
        exec (.rinc e) s = .next { s with r := wrap64 i, status := 0x00#32 }) ∧
      (e.rm = .halfEven → 2 * |s64 s.b| = |s64 s.c| → Odd (s64 s.a) →
        exec (.rinc e) s = .next { s with
          r := wrap64 (s64 s.b * s64 s.c).sign
          status := 0x00#32 }) ∧
      (e.rm = .unnecessary → s64 s.b ≠ 0 →
        exec (.rinc e) s = .next { s with status := 0x21#32 }))

/-- R79, R80: RINCD. A digit above 9 raises INVALID_ARGUMENT in every mode. Else the increment is that
of any fraction `f` whose first decimal digit is `B[3:0]` and which has further non-zero digits
exactly when `B[4]` is 1, negative when `B[5]` is 1. -/
def Obligations.RincdSelectsIncrement : Prop :=
  ∀ (e : Engine) (s : State),
    (Instr.rincd e).opcode = 0x21#8 ∧
    (9 < s.b.toNat % 16 → exec (.rincd e) s = .next { s with status := 0x41#32 }) ∧
    (s.b.toNat % 16 ≤ 9 → ∀ f q : ℝ,
      ((s.b.toNat % 16 : Nat) : ℝ) / 10 ≤ f → f < (((s.b.toNat % 16 : Nat) : ℝ) + 1) / 10 →
      (f = ((s.b.toNat % 16 : Nat) : ℝ) / 10 ↔ s.b.toNat / 16 % 2 = 0) →
      (q = if s.b.toNat / 32 % 2 = 1 then -f else f) →
      (∀ i : ℤ, RoundsTo e.rm q i → ¬(e.rm = .halfEven ∧ f = 1 / 2 ∧ Odd (s64 s.a)) →
        exec (.rincd e) s = .next { s with r := wrap64 i, status := 0x00#32 }) ∧
      (e.rm = .halfEven → f = 1 / 2 → Odd (s64 s.a) →
        exec (.rincd e) s = .next { s with
          r := wrap64 (if s.b.toNat / 32 % 2 = 1 then -1 else 1)
          status := 0x00#32 }) ∧
      (e.rm = .unnecessary → f ≠ 0 →
        exec (.rincd e) s = .next { s with status := 0x21#32 }))

/-- R80: the digit form of the increment agrees with the remainder form, for every number of discarded
digits: the highest of `k + 1` discarded digits, whether a lower one is non-zero, and the sign. -/
def Obligations.DigitIncrementAgrees : Prop :=
  ∀ (rm : RoundingMode) (t r : ℤ) (k : Nat), r.natAbs < 10 ^ (k + 1) →
    incd rm t (r.natAbs / 10 ^ k) (decide (r.natAbs % 10 ^ k ≠ 0)) (decide (r < 0)) =
      inc rm t r (10 ^ (k + 1))

/-! ### ScaleMetrics (spec/40_scale_metrics.md) -/

/-- R61, R62, R63: SFGET gives `10^s`, SFMAXI the largest integer whose scaled value is at most
`I64MAX`, SFMINI the smallest whose scaled value is at least `I64MIN`. -/
def Obligations.ScaleConstants : Prop :=
  ∀ (e : Engine) (s : State), e.wf = true →
    (Instr.sfget e).opcode = 0x10#8 ∧
    (Instr.sfmaxi e).opcode = 0x11#8 ∧
    (Instr.sfmini e).opcode = 0x12#8 ∧
    fits64 (10 ^ e.scale.toNat) = true ∧
    exec (.sfget e) s = .next { s with r := wrap64 (10 ^ e.scale.toNat), status := 0x00#32 } ∧
    (∀ m : ℤ, m * 10 ^ e.scale.toNat ≤ i64Max → i64Max < (m + 1) * 10 ^ e.scale.toNat →
      exec (.sfmaxi e) s = .next { s with r := wrap64 m, status := 0x00#32 }) ∧
    (∀ m : ℤ, i64Min ≤ m * 10 ^ e.scale.toNat → (m - 1) * 10 ^ e.scale.toNat < i64Min →
      exec (.sfmini e) s = .next { s with r := wrap64 m, status := 0x00#32 })

/-- R64: SFMUL wraps in both overflow modes, with `V` set when the exact product does not fit. -/
def Obligations.SfmulWraps : Prop :=
  ∀ (e : Engine) (s : State),
    (Instr.sfmul e).opcode = 0x13#8 ∧
    exec (.sfmul e) s = .next { s with
      r := wrap64 (s64 s.a * 10 ^ e.scale.toNat)
      status := if fits64 (s64 s.a * 10 ^ e.scale.toNat) then 0x00#32 else 0x02#32 }

/-- R65, R66: SFDIV and SFMOD give the quotient and remainder of the division by `10^s` that truncates
toward zero: the remainder is smaller than `10^s` and is zero or has the sign of `A`. -/
def Obligations.SfdivSfmodTruncate : Prop :=
  ∀ (e : Engine) (s : State),
    (Instr.sfdiv e).opcode = 0x14#8 ∧ (Instr.sfmod e).opcode = 0x15#8 ∧
    ∀ q r : ℤ,
      s64 s.a = 10 ^ e.scale.toNat * q + r → |r| < 10 ^ e.scale.toNat →
      (0 < s64 s.a → 0 ≤ r) → (s64 s.a ≤ 0 → r ≤ 0) →
      exec (.sfdiv e) s = .next { s with r := wrap64 q, status := 0x00#32 } ∧
      exec (.sfmod e) s = .next { s with r := wrap64 r, status := 0x00#32 }

/-! ### WideInt (spec/42_wideint.md) -/

/-- R86: ADD64W leaves the exact sum in `W`, as 128-bit two's complement, and `V` says it does not fit
64 bits; the sign-bit circuit forms the same `W` and the same `V`. -/
def Obligations.Add64wExact : Prop :=
  ∀ (e : Engine) (s : State),
    (Instr.add64w e).opcode = 0x30#8 ∧
    ∃ t, exec (.add64w e) s = .next t ∧ s128 t.wide = s64 s.a + s64 s.b ∧
      t = { s with
        wl := t.wl
        wh := t.wh
        status := if fits64 (s64 s.a + s64 s.b) then 0x00#32 else 0x02#32 } ∧
      addCircuit s.a s.b = (t.wide, statusV t.status)

/-- R87: MUL64 leaves the exact signed product in `W`, for every pair of operands, and `V` says it does
not fit 64 bits; the four partial products add up to the same product. -/
def Obligations.Mul64Exact : Prop :=
  ∀ (e : Engine) (s : State),
    (Instr.mul64 e).opcode = 0x31#8 ∧
    ∃ t, exec (.mul64 e) s = .next t ∧ s128 t.wide = s64 s.a * s64 s.b ∧
      t = { s with
        wl := t.wl
        wh := t.wh
        status := if fits64 (s64 s.a * s64 s.b) then 0x00#32 else 0x02#32 } ∧
      mulPartialProducts s.a s.b = s128 t.wide

/-- R110, R125: the ways the spec describes of forming a product and a scaled quotient from integer and
fractional parts give the quotient and the remainder of the rule. -/
def Obligations.SplitFormsAgree : Prop :=
  (∀ a b f : ℤ, 0 < f → splitMultiply a b f = ((a * b).tdiv f, (a * b).tmod f)) ∧
  (∀ a b f : ℤ, b ≠ 0 → 0 < f → splitDivide a b f = ((a * f).tdiv b, (a * f).tmod b))

/-- R88: DIVW leaves the quotient truncated toward zero in `W` and the remainder, zero or with the
dividend's sign, in `R`; the quotient `2^127` wraps. A zero divisor faults. The document's divider, 128
shift-and-subtract iterations on the magnitudes, gives the same pattern and the same remainder. -/
def Obligations.DivwTruncates : Prop :=
  ∀ (e : Engine) (s : State),
    (Instr.divw e).opcode = 0x32#8 ∧
    (s.b = 0#64 → exec (.divw e) s = .next { s with status := 0x31#32 }) ∧
    (s.b ≠ 0#64 → ∀ q r : ℤ,
      s128 s.wide = s64 s.b * q + r → |r| < |s64 s.b| →
      (0 < s128 s.wide → 0 ≤ r) → (s128 s.wide ≤ 0 → r ≤ 0) →
      exec (.divw e) s = .next { s with
        wl := BitVec.ofInt 64 (q % 2 ^ 64)
        wh := BitVec.ofInt 64 (q / 2 ^ 64)
        r := wrap64 r
        status := if fits64 q then 0x00#32 else 0x02#32 } ∧
      longDivide (s128 s.wide) (s64 s.b) = (wrap128 q, r))

/-- R89: WNEG negates the accumulator modulo `2^128`, so `I128MIN` stays, and `V` says the new value
does not fit 64 bits. -/
def Obligations.WnegNegates : Prop :=
  ∀ (e : Engine) (s : State),
    (Instr.wneg e).opcode = 0x33#8 ∧
    ∃ t, exec (.wneg e) s = .next t ∧ t.wide = 0#128 - s.wide ∧
      t = { s with
        wl := t.wl
        wh := t.wh
        status := if fits64 (s128 t.wide) then 0x00#32 else 0x02#32 }

/-- R90, R91, R92: the three predicates. WFITS is also the pattern test of R90 and WISNEG the bit
`WH[63]` of R91. -/
def Obligations.WidePredicates : Prop :=
  ∀ (e : Engine) (s : State),
    (Instr.wfits e).opcode = 0x34#8 ∧
    (Instr.wisneg e).opcode = 0x35#8 ∧
    (Instr.wsignum e).opcode = 0x36#8 ∧
    exec (.wfits e) s = .next { s with
      r := if i64Min ≤ s128 s.wide ∧ s128 s.wide ≤ i64Max then 1#64 else 0#64
      status := 0x00#32 } ∧
    (wideFitsPattern s = true ↔ i64Min ≤ s128 s.wide ∧ s128 s.wide ≤ i64Max) ∧
    exec (.wisneg e) s = .next { s with
      r := if s128 s.wide < 0 then 1#64 else 0#64
      status := 0x00#32 } ∧
    (s.wh.getLsbD 63 = true ↔ s128 s.wide < 0) ∧
    exec (.wsignum e) s = .next { s with
      r := if s128 s.wide < 0 then 0xFFFFFFFFFFFFFFFF#64 else if s128 s.wide = 0 then 0#64 else 1#64
      status := 0x00#32 }

/-- R93: ISQRT leaves the root in `R`, the remainder in `W`, and `V` set when the root is `2^63` or
more. A negative radicand faults. -/
def Obligations.IsqrtRootRemainder : Prop :=
  ∀ (e : Engine) (s : State),
    (Instr.isqrt e).opcode = 0x37#8 ∧
    (s128 s.wide < 0 → exec (.isqrt e) s = .next { s with status := 0x41#32 }) ∧
    (∀ t : ℕ, (t : ℤ) * t ≤ s128 s.wide → s128 s.wide < ((t : ℤ) + 1) * (t + 1) →
      exec (.isqrt e) s = .next { s with
        wl := BitVec.ofInt 64 ((s128 s.wide - t * t) % 2 ^ 64)
        wh := BitVec.ofInt 64 ((s128 s.wide - t * t) / 2 ^ 64)
        r := BitVec.ofNat 64 t
        status := if t < 2 ^ 63 then 0x00#32 else 0x02#32 })

/-! ### Engine, additive and multiplicative (spec/43_engine_add_mul.md) -/

/-- R100: NOP clears `STATUS` and does nothing else. -/
def Obligations.NopClearsStatus : Prop :=
  ∀ (e : Engine) (s : State),
    (Instr.nop e).opcode = 0x00#8 ∧ exec (.nop e) s = .next { s with status := 0x00#32 }

/-- R101, R102, R104, R108, R109: ADD, SUB, MULL, ABS and NEG form the exact integer and apply the
policy: the wrapped result with `V` in UNCHECKED mode, OVERFLOW in CHECKED mode. -/
def Obligations.ExactCommandsMeetPolicy : Prop :=
  ∀ (e : Engine) (s : State),
    (Instr.add e).opcode = 0x40#8 ∧
    (Instr.sub e).opcode = 0x41#8 ∧
    (Instr.mull e).opcode = 0x43#8 ∧
    (Instr.abs e).opcode = 0x47#8 ∧
    (Instr.neg e).opcode = 0x48#8 ∧
    ExactCommand (.add e) (s64 s.a + s64 s.b) s ∧
    ExactCommand (.sub e) (s64 s.a - s64 s.b) s ∧
    ExactCommand (.mull e) (s64 s.a * s64 s.b) s ∧
    ExactCommand (.abs e) |s64 s.a| s ∧
    ExactCommand (.neg e) (-(s64 s.a)) s

/-- R103: MUL is the true product of the two decimal numbers, at the scale of the operands, rounded
once. -/
def Obligations.MulMeetsReference : Prop :=
  ∀ (e : Engine) (s : State),
    (Instr.mul e).opcode = 0x42#8 ∧
    RoundedCommand (.mul e)
      (((s64 s.a : ℝ) / realFactor e) * ((s64 s.b : ℝ) / realFactor e) * realFactor e) s

/-- R106: SQR is the true square, rounded once, and gives exactly what MUL gives with `B = A`. -/
def Obligations.SqrMeetsReference : Prop :=
  ∀ (e : Engine) (s : State),
    (Instr.sqr e).opcode = 0x45#8 ∧
    RoundedCommand (.sqr e) (((s64 s.a : ℝ) / realFactor e) ^ 2 * realFactor e) s ∧
    (∀ t, exec (.mul e) { s with b := s.a } = .next t → exec (.sqr e) s = .next { t with b := s.b })

/-- R107: AVG is the rounded mean and always fits. -/
def Obligations.AvgMeetsReference : Prop :=
  ∀ (e : Engine) (s : State),
    (Instr.avg e).opcode = 0x46#8 ∧
    RoundedFitCommand (.avg e) (((s64 s.a : ℝ) + s64 s.b) / 2) s

/-- R105, R118: MULP10 and DIVP10 multiply and divide by `10^n` for every `i32` exponent, rounding
once. -/
def Obligations.PowerOfTenMeetsReference : Prop :=
  ∀ (e : Engine) (s : State),
    (Instr.mulp10 e).opcode = 0x44#8 ∧
    (Instr.divp10 e).opcode = 0x52#8 ∧
    RoundedCommand (.mulp10 e) ((s64 s.a : ℝ) * (10 : ℝ) ^ (s32 (s.b.extractLsb' 0 32))) s ∧
    RoundedCommand (.divp10 e) ((s64 s.a : ℝ) / (10 : ℝ) ^ (s32 (s.b.extractLsb' 0 32))) s

/-! ### Engine, division, root, power, shifts (spec/44_engine_div_sqrt_pow.md) -/

/-- R116: DIV is the true quotient of the two decimal numbers, at the scale of the operands, rounded
once; a zero divisor faults whatever the dividend and the modes. -/
def Obligations.DivMeetsReference : Prop :=
  ∀ (e : Engine) (s : State),
    (Instr.div e).opcode = 0x50#8 ∧
    (s.b = 0#64 → exec (.div e) s = .next { s with status := 0x31#32 }) ∧
    (s.b ≠ 0#64 → RoundedCommand (.div e)
      (((s64 s.a : ℝ) / realFactor e) / ((s64 s.b : ℝ) / realFactor e) * realFactor e) s)

/-- R117: DIVL is the quotient by a plain integer, rounded once; a zero divisor faults. -/
def Obligations.DivlMeetsReference : Prop :=
  ∀ (e : Engine) (s : State),
    (Instr.divl e).opcode = 0x51#8 ∧
    (s.b = 0#64 → exec (.divl e) s = .next { s with status := 0x31#32 }) ∧
    (s.b ≠ 0#64 → RoundedCommand (.divl e) ((s64 s.a : ℝ) / s64 s.b) s)

/-- R119: INV is the true reciprocal, rounded once, and gives exactly what DIV gives with the one-value
as dividend; a zero operand faults. -/
def Obligations.InvMeetsReference : Prop :=
  ∀ (e : Engine) (s : State),
    (Instr.inv e).opcode = 0x53#8 ∧
    (s.a = 0#64 → exec (.inv e) s = .next { s with status := 0x31#32 }) ∧
    (s.a ≠ 0#64 →
      RoundedCommand (.inv e) (1 / ((s64 s.a : ℝ) / realFactor e) * realFactor e) s) ∧
    (e.wf = true → ∀ t,
      exec (.div e) { s with a := wrap64 (10 ^ e.scale.toNat), b := s.a } = .next t →
      exec (.inv e) s = .next { t with a := s.a, b := s.b })

/-- R120, R121: SQRT is the true root `sqrt(a·F)`, correctly rounded; it always fits, and a negative
operand faults in every mode. -/
def Obligations.SqrtMeetsReference : Prop :=
  ∀ (e : Engine) (s : State), e.wf = true →
    (Instr.sqrt e).opcode = 0x54#8 ∧
    (s64 s.a < 0 → exec (.sqrt e) s = .next { s with status := 0x41#32 }) ∧
    (0 ≤ s64 s.a → RoundedFitCommand (.sqrt e) (Real.sqrt ((s64 s.a : ℝ) * realFactor e)) s)

/-- R122: POW where no step faults. Exponent 0 gives the one-value for every base; a positive exponent
gives the end of the chain of rounded multiplies; a negative one inverts it by one more step. `V` is
set when any step's exact result did not fit. -/
def Obligations.PowFollowsChain : Prop :=
  ∀ (e : Engine) (s : State),
    (Instr.pow e).opcode = 0x55#8 ∧
    (s32 (s.b.extractLsb' 0 32) = 0 →
      exec (.pow e) s = .next { s with r := wrap64 (10 ^ e.scale.toNat), status := 0x00#32 }) ∧
    (∀ (p : ℤ) (v : Bool), PowChain e (s64 s.a) (s32 (s.b.extractLsb' 0 32)).natAbs p v →
      (0 < s32 (s.b.extractLsb' 0 32) →
        exec (.pow e) s = .next { s with
          r := wrap64 p
          status := if v then 0x02#32 else 0x00#32 }) ∧
      (s32 (s.b.extractLsb' 0 32) < 0 → p ≠ 0 → ∀ x : ℤ,
        RoundsTo e.rm (realFactor e * realFactor e / p) x →
        (e.ov = .unchecked ∨ fits64 x = true) →
        exec (.pow e) s = .next { s with
          r := wrap64 x
          status := if v || !fits64 x then 0x02#32 else 0x00#32 }))

/-- R122: where POW faults. The first step of the chain that needs rounding in mode UNNECESSARY, or
does not fit in mode CHECKED, ends the command with that cause; a negative exponent whose positive
power is 0 ends it with DIVISION_BY_ZERO, and the final invert faults as a step does. -/
def Obligations.PowFaultsAtFirstStep : Prop :=
  ∀ (e : Engine) (s : State) (k j : ℕ) (p : ℤ) (v : Bool),
    -- the square of the accumulator after the leading bits that spell `k`
    ((s32 (s.b.extractLsb' 0 32)).natAbs / 2 ^ (j + 1) = k → PowChain e (s64 s.a) k p v →
      (e.rm = .unnecessary → (∀ x : ℤ, (p : ℝ) * p / realFactor e ≠ x) →
        exec (.pow e) s = .next { s with status := 0x21#32 }) ∧
      (e.ov = .checked → ∀ x : ℤ, RoundsTo e.rm ((p : ℝ) * p / realFactor e) x → fits64 x = false →
        exec (.pow e) s = .next { s with status := 0x13#32 })) ∧
    -- the multiply by the base at a bit 1, after the square
    ((s32 (s.b.extractLsb' 0 32)).natAbs / 2 ^ j = 2 * k + 1 → PowChain e (s64 s.a) (2 * k) p v →
      (e.rm = .unnecessary → (∀ x : ℤ, (p : ℝ) * s64 s.a / realFactor e ≠ x) →
        exec (.pow e) s = .next { s with status := 0x21#32 }) ∧
      (e.ov = .checked → ∀ x : ℤ, RoundsTo e.rm ((p : ℝ) * s64 s.a / realFactor e) x →
        fits64 x = false → exec (.pow e) s = .next { s with status := 0x13#32 })) ∧
    -- the invert
    (s32 (s.b.extractLsb' 0 32) < 0 →
      PowChain e (s64 s.a) (s32 (s.b.extractLsb' 0 32)).natAbs p v →
      (p = 0 → exec (.pow e) s = .next { s with status := 0x31#32 }) ∧
      (p ≠ 0 → e.rm = .unnecessary → (∀ x : ℤ, realFactor e * realFactor e / p ≠ x) →
        exec (.pow e) s = .next { s with status := 0x21#32 }) ∧
      (p ≠ 0 → e.ov = .checked → ∀ x : ℤ,
        RoundsTo e.rm (realFactor e * realFactor e / p) x → fits64 x = false →
        exec (.pow e) s = .next { s with status := 0x13#32 }))

/-- R123, R124: SHL and SHR multiply and divide by `2^n` for every `i32` count, not reduced modulo 64,
rounding once; and SHR by a count that is not negative is the arithmetic shift in mode FLOOR. -/
def Obligations.ShiftsMeetReference : Prop :=
  ∀ (e : Engine) (s : State),
    (Instr.shl e).opcode = 0x56#8 ∧
    (Instr.shr e).opcode = 0x57#8 ∧
    RoundedCommand (.shl e) ((s64 s.a : ℝ) * (2 : ℝ) ^ (s32 (s.b.extractLsb' 0 32))) s ∧
    RoundedCommand (.shr e) ((s64 s.a : ℝ) / (2 : ℝ) ^ (s32 (s.b.extractLsb' 0 32))) s ∧
    (e.rm = .floor → 0 ≤ s32 (s.b.extractLsb' 0 32) →
      exec (.shr e) s = .next { s with
        r := s.a.sshiftRight (s32 (s.b.extractLsb' 0 32)).toNat
        status := 0x00#32 })

/-! ### Engine, comparison and conversion (spec/45_engine_compare_convert.md) -/

/-- R130, R131: CMP and SGN give -1, 0 or +1, sign-extended. -/
def Obligations.CompareGivesSign : Prop :=
  ∀ (e : Engine) (s : State),
    (Instr.cmp e).opcode = 0x60#8 ∧
    (Instr.sgn e).opcode = 0x61#8 ∧
    exec (.cmp e) s = .next { s with
      r := if s64 s.a < s64 s.b then 0xFFFFFFFFFFFFFFFF#64 else if s64 s.a = s64 s.b then 0#64 else 1#64
      status := 0x00#32 } ∧
    exec (.sgn e) s = .next { s with
      r := if s64 s.a < 0 then 0xFFFFFFFFFFFFFFFF#64 else if s64 s.a = 0 then 0#64 else 1#64
      status := 0x00#32 }

/-- R132: FROML is the integer times `10^s` through the policy, and it fits exactly for the integers
between `MINI[s]` and `MAXI[s]`. -/
def Obligations.FromlBounds : Prop :=
  ∀ (e : Engine) (s : State), e.wf = true →
    (Instr.froml e).opcode = 0x62#8 ∧
    ExactCommand (.froml e) (s64 s.a * 10 ^ e.scale.toNat) s ∧
    (fits64 (s64 s.a * 10 ^ e.scale.toNat) = true ↔
      minIntegerPart e.scale ≤ s64 s.a ∧ s64 s.a ≤ maxIntegerPart e.scale)

/-- R133: TOL is the decimal number rounded to an integer, and always fits. -/
def Obligations.TolMeetsReference : Prop :=
  ∀ (e : Engine) (s : State),
    (Instr.tol e).opcode = 0x63#8 ∧
    RoundedFitCommand (.tol e) ((s64 s.a : ℝ) / realFactor e) s

/-- R134: RESCALE is the decimal number of scale `sourceScale`, at scale `s`, rounded once, for every
`i32` source scale. -/
def Obligations.RescaleMeetsReference : Prop :=
  ∀ (e : Engine) (s : State),
    (Instr.rescale e).opcode = 0x64#8 ∧
    RoundedCommand (.rescale e)
      ((s64 s.a : ℝ) / (10 : ℝ) ^ (s32 (s.b.extractLsb' 0 32)) * realFactor e) s

/-- S6: where a multiply does not round and fits, dividing its result by the same operand gives the
first operand back, in every mode. -/
def Obligations.DivideUndoesMultiply : Prop :=
  ∀ (e : Engine) (s : State) (m : ℤ), s.b ≠ 0#64 → s64 s.a * s64 s.b = m * 10 ^ e.scale.toNat →
    fits64 m = true →
    exec (.mul e) s = .next { s with r := wrap64 m, status := 0x00#32 } ∧
    exec (.div e) { s with a := wrap64 m } =
      .next { s with a := wrap64 m, r := s.a, status := 0x00#32 }
end

