-- ==== Sys2Proof/Laws/Decode.lean ====
section
/-! SUPPORT. The fields of an assembled word, each said once (spec/30_encoding.md R46). -/

namespace Sys2Proof

@[simp] theorem cmdOp_assembleWord (op : BitVec 8) (e : Engine) : cmdOp (assembleWord op e) = op := by
  ext i hi
  simp only [cmdOp, assembleWord, BitVec.getElem_extractLsb', BitVec.getLsbD_append]
  simp [hi]

@[simp] theorem cmdScale_assembleWord (op : BitVec 8) (e : Engine) :
    cmdScale (assembleWord op e) = e.scale := by
  ext i hi
  simp only [cmdScale, assembleWord, BitVec.getElem_extractLsb', BitVec.getLsbD_append]
  simp [hi, show ¬ 8 + i < 8 by omega, show 8 + i - 8 = i by omega]

@[simp] theorem cmdRm_assembleWord (op : BitVec 8) (e : Engine) :
    cmdRm (assembleWord op e) = roundingModeCode e.rm := by
  ext i hi
  simp only [cmdRm, assembleWord, BitVec.getElem_extractLsb', BitVec.getLsbD_append]
  simp [hi, show ¬ 13 + i < 8 by omega, show ¬ 13 + i - 8 < 5 by omega,
    show 13 + i - 8 - 5 = i by omega]

@[simp] theorem cmdOv_assembleWord (op : BitVec 8) (e : Engine) :
    cmdOv (assembleWord op e) = overflowModeCode e.ov := by
  ext i hi
  simp only [cmdOv, assembleWord, BitVec.getElem_extractLsb', BitVec.getLsbD_append]
  have : i = 0 := by omega
  subst this
  simp

@[simp] theorem cmdZero_assembleWord (op : BitVec 8) (e : Engine) :
    cmdZero (assembleWord op e) = 0#15 := by
  ext i hi
  simp only [cmdZero, assembleWord, BitVec.getElem_extractLsb', BitVec.getLsbD_append]
  simp [show ¬ 17 + i < 8 by omega, show ¬ 17 + i - 8 < 5 by omega,
    show ¬ 17 + i - 8 - 5 < 3 by omega, show ¬ 17 + i - 8 - 5 - 3 < 1 by omega]

@[simp] theorem roundingModeOfCode_code (m : RoundingMode) :
    roundingModeOfCode (roundingModeCode m) = m := by
  cases m <;> decide

@[simp] theorem overflowModeOfCode_code (m : OverflowMode) :
    overflowModeOfCode (overflowModeCode m) = m := by
  cases m <;> decide

theorem roundingModeCode_ofCode (c : BitVec 3) : roundingModeCode (roundingModeOfCode c) = c := by
  revert c; decide

theorem overflowModeCode_ofCode (c : BitVec 1) : overflowModeCode (overflowModeOfCode c) = c := by
  revert c; decide

/-- A datum written for a command carries the command's word (spec/10_state.md R15). -/
@[simp] theorem commandWord_commandDatum (i : Instr) : commandWord (commandDatum i) = encode i := by
  simp only [commandWord, commandDatum]
  ext j hj
  have : j < 64 := by omega
  simp [hj, this]

end Sys2Proof
end

