-- ==== Sys2Proof/Laws/Flags.lean ====
section
/-! SUPPORT. The range test, the status words and the policy, each said once. -/

namespace Sys2Proof.Machine

theorem fits64_iff (n : Int) : fits64 n = true ↔ i64Min ≤ n ∧ n ≤ i64Max := by
  simp [fits64]

theorem fits64_false_iff (n : Int) : fits64 n = false ↔ n < i64Min ∨ i64Max < n := by
  simp only [fits64, decide_eq_false_iff_not]
  omega

/-- A pattern read as signed is always in range (spec/00_scope.md R8). -/
theorem fits64_s64 (v : Word) : fits64 (s64 v) = true := by
  have h1 := BitVec.le_toInt v
  have h2 := BitVec.toInt_lt (x := v)
  simp only [fits64_iff, s64, i64Min, i64Max]
  norm_num at h1 h2
  omega

/-- Wrapping loses nothing in range (spec/00_scope.md R8). -/
theorem s64_wrap64 {n : Int} (h : fits64 n = true) : s64 (wrap64 n) = n := by
  simp only [fits64_iff, i64Min, i64Max] at h
  simp only [s64, wrap64, BitVec.toInt_ofInt]
  apply Int.bmod_eq_of_le <;> norm_num <;> omega

@[simp] theorem wrap64_s64 (v : Word) : wrap64 (s64 v) = v := by
  simp [wrap64, s64]

@[simp] theorem wrap128_s128 (v : Wide) : wrap128 (s128 v) = v := by
  simp [wrap128, s128]

/-! The seven words `STATUS` can hold after a command (spec/95_test_vectors.md, conventions). -/

@[simp] theorem statusOk_false : statusOk false = 0x00#32 := by decide
@[simp] theorem statusOk_true : statusOk true = 0x02#32 := by decide
@[simp] theorem statusFault_overflow : statusFault .overflow = 0x13#32 := by decide
@[simp] theorem statusFault_roundingRequired : statusFault .roundingRequired = 0x21#32 := by decide
@[simp] theorem statusFault_divisionByZero : statusFault .divisionByZero = 0x31#32 := by decide
@[simp] theorem statusFault_invalidArgument : statusFault .invalidArgument = 0x41#32 := by decide
@[simp] theorem statusFault_illegalCommand : statusFault .illegalCommand = 0x51#32 := by decide

/-! The policy (spec/41_rounding_and_overflow.md R75). -/

theorem policy_of_fits {ov : OverflowMode} {x : Int} (h : fits64 x = true) :
    policy ov x = .ok (wrap64 x, false) := by
  simp [policy, h]

theorem policy_checked {x : Int} (h : fits64 x = false) :
    policy .checked x = .error .overflow := by
  simp [policy, h]

theorem policy_unchecked (x : Int) : policy .unchecked x = .ok (wrap64 x, !fits64 x) := by
  cases h : fits64 x <;> simp [policy, h]

/-- All the policy can do. -/
theorem policy_cases (ov : OverflowMode) (x : Int) :
    policy ov x = .ok (wrap64 x, !fits64 x) ∧ (ov = .unchecked ∨ fits64 x = true) ∨
    policy ov x = .error .overflow ∧ ov = .checked ∧ fits64 x = false := by
  cases ov <;> cases h : fits64 x <;> simp [policy, h]

/-- All that rounding followed by the policy can do: an earlier fault stands. -/
theorem thenPolicy_cases (ov : OverflowMode) (res : Except Cause Int) :
    (∃ x, res = .ok x ∧ thenPolicy ov res = policy ov x) ∨
    (∃ c, res = .error c ∧ thenPolicy ov res = .error c) := by
  cases res with
  | ok x => exact .inl ⟨x, rfl, rfl⟩
  | error c => exact .inr ⟨c, rfl, rfl⟩

end Sys2Proof.Machine
end

