-- ==== Sys2Proof/Laws/State.lean ====
section
/-! SUPPORT. One lemma per field of `State` for each shared update, true by `rfl`, so that no later
proof unfolds a record update. -/

namespace Sys2Proof.Machine

section
variable (s : State)

-- State.raise: STATUS alone is written (spec/60_exceptions.md R141)
@[simp] theorem State.raise_a (c : Cause) : (s.raise c).a = s.a := rfl
@[simp] theorem State.raise_b (c : Cause) : (s.raise c).b = s.b := rfl
@[simp] theorem State.raise_c (c : Cause) : (s.raise c).c = s.c := rfl
@[simp] theorem State.raise_wl (c : Cause) : (s.raise c).wl = s.wl := rfl
@[simp] theorem State.raise_wh (c : Cause) : (s.raise c).wh = s.wh := rfl
@[simp] theorem State.raise_r (c : Cause) : (s.raise c).r = s.r := rfl
@[simp] theorem State.raise_status (c : Cause) : (s.raise c).status = statusFault c := rfl
@[simp] theorem State.raise_cmd (c : Cause) : (s.raise c).cmd = s.cmd := rfl
@[simp] theorem State.raise_pending (c : Cause) : (s.raise c).pending = s.pending := rfl
@[simp] theorem State.raise_readData (c : Cause) : (s.raise c).readData = s.readData := rfl
@[simp] theorem State.raise_draws (c : Cause) : (s.raise c).draws = s.draws := rfl

-- State.succeed: R and STATUS are written
@[simp] theorem State.succeed_a (x : Word) (v : Bool) : (s.succeed x v).a = s.a := rfl
@[simp] theorem State.succeed_b (x : Word) (v : Bool) : (s.succeed x v).b = s.b := rfl
@[simp] theorem State.succeed_c (x : Word) (v : Bool) : (s.succeed x v).c = s.c := rfl
@[simp] theorem State.succeed_wl (x : Word) (v : Bool) : (s.succeed x v).wl = s.wl := rfl
@[simp] theorem State.succeed_wh (x : Word) (v : Bool) : (s.succeed x v).wh = s.wh := rfl
@[simp] theorem State.succeed_r (x : Word) (v : Bool) : (s.succeed x v).r = x := rfl
@[simp] theorem State.succeed_status (x : Word) (v : Bool) : (s.succeed x v).status = statusOk v := rfl
@[simp] theorem State.succeed_cmd (x : Word) (v : Bool) : (s.succeed x v).cmd = s.cmd := rfl
@[simp] theorem State.succeed_pending (x : Word) (v : Bool) : (s.succeed x v).pending = s.pending := rfl
@[simp] theorem State.succeed_readData (x : Word) (v : Bool) : (s.succeed x v).readData = s.readData := rfl
@[simp] theorem State.succeed_draws (x : Word) (v : Bool) : (s.succeed x v).draws = s.draws := rfl

-- State.withWide: WL and WH are written
@[simp] theorem State.withWide_a (w : Wide) : (s.withWide w).a = s.a := rfl
@[simp] theorem State.withWide_b (w : Wide) : (s.withWide w).b = s.b := rfl
@[simp] theorem State.withWide_c (w : Wide) : (s.withWide w).c = s.c := rfl
@[simp] theorem State.withWide_wl (w : Wide) : (s.withWide w).wl = w.extractLsb' 0 64 := rfl
@[simp] theorem State.withWide_wh (w : Wide) : (s.withWide w).wh = w.extractLsb' 64 64 := rfl
@[simp] theorem State.withWide_r (w : Wide) : (s.withWide w).r = s.r := rfl
@[simp] theorem State.withWide_status (w : Wide) : (s.withWide w).status = s.status := rfl
@[simp] theorem State.withWide_cmd (w : Wide) : (s.withWide w).cmd = s.cmd := rfl
@[simp] theorem State.withWide_pending (w : Wide) : (s.withWide w).pending = s.pending := rfl
@[simp] theorem State.withWide_readData (w : Wide) : (s.withWide w).readData = s.readData := rfl
@[simp] theorem State.withWide_draws (w : Wide) : (s.withWide w).draws = s.draws := rfl

-- State.succeedWide: WL, WH and STATUS are written
@[simp] theorem State.succeedWide_a (w : Wide) : (s.succeedWide w).a = s.a := rfl
@[simp] theorem State.succeedWide_b (w : Wide) : (s.succeedWide w).b = s.b := rfl
@[simp] theorem State.succeedWide_c (w : Wide) : (s.succeedWide w).c = s.c := rfl
@[simp] theorem State.succeedWide_wl (w : Wide) : (s.succeedWide w).wl = w.extractLsb' 0 64 := rfl
@[simp] theorem State.succeedWide_wh (w : Wide) : (s.succeedWide w).wh = w.extractLsb' 64 64 := rfl
@[simp] theorem State.succeedWide_r (w : Wide) : (s.succeedWide w).r = s.r := rfl
@[simp] theorem State.succeedWide_status (w : Wide) :
    (s.succeedWide w).status = statusOk (!fits64 (s128 w)) := rfl
@[simp] theorem State.succeedWide_cmd (w : Wide) : (s.succeedWide w).cmd = s.cmd := rfl
@[simp] theorem State.succeedWide_pending (w : Wide) : (s.succeedWide w).pending = s.pending := rfl
@[simp] theorem State.succeedWide_readData (w : Wide) : (s.succeedWide w).readData = s.readData := rfl
@[simp] theorem State.succeedWide_draws (w : Wide) : (s.succeedWide w).draws = s.draws := rfl

-- hostReset (spec/70_reset_and_hazards.md R160)
@[simp] theorem hostReset_status : (hostReset s).status = 0#32 := rfl
@[simp] theorem hostReset_cmd : (hostReset s).cmd = 0#32 := rfl
@[simp] theorem hostReset_pending : (hostReset s).pending = s.pending := rfl
@[simp] theorem hostReset_readData : (hostReset s).readData = s.readData := rfl
@[simp] theorem hostReset_draws : (hostReset s).draws = s.draws + 6 := rfl

-- State.launchNext changes the host's stream alone
@[simp] theorem State.launchNext_pending (d : Word) :
    (s.launchNext d).pending = .write 7#3 d :: s.pending := rfl
@[simp] theorem State.launchNext_a (d : Word) : (s.launchNext d).a = s.a := rfl
@[simp] theorem State.launchNext_b (d : Word) : (s.launchNext d).b = s.b := rfl
@[simp] theorem State.launchNext_c (d : Word) : (s.launchNext d).c = s.c := rfl
@[simp] theorem State.launchNext_wl (d : Word) : (s.launchNext d).wl = s.wl := rfl
@[simp] theorem State.launchNext_wh (d : Word) : (s.launchNext d).wh = s.wh := rfl
@[simp] theorem State.launchNext_r (d : Word) : (s.launchNext d).r = s.r := rfl
@[simp] theorem State.launchNext_status (d : Word) : (s.launchNext d).status = s.status := rfl
@[simp] theorem State.launchNext_cmd (d : Word) : (s.launchNext d).cmd = s.cmd := rfl

end

end Sys2Proof.Machine
end

