-- ==== Sys2Proof/Laws/Ops.lean ====
section
/-! SUPPORT. What each shared operation can do, said once: the provers cite these instead of
unfolding. -/

namespace Sys2Proof.Machine

/-- All that a write-back can do. -/
theorem State.finish_cases {s : State} {res : Except Cause (Word × Bool)} {t : State}
    (h : s.finish res = .next t) :
    (∃ x v, res = .ok (x, v) ∧ t = s.succeed x v) ∨ (∃ c, res = .error c ∧ t = s.raise c) := by
  cases res with
  | ok p => exact .inl ⟨p.1, p.2, rfl, by simpa [State.finish] using h.symm⟩
  | error c => exact .inr ⟨c, rfl, by simpa [State.finish] using h.symm⟩

@[simp] theorem State.finish_ok (s : State) (x : Word) (v : Bool) :
    s.finish (.ok (x, v)) = .next (s.succeed x v) := rfl

@[simp] theorem State.finish_error (s : State) (c : Cause) :
    s.finish (.error c) = .next (s.raise c) := rfl

/-- All that a write-back of a result that always fits can do. -/
theorem State.finishFit_cases {s : State} {res : Except Cause Int} {t : State}
    (h : s.finishFit res = .next t) :
    (∃ x, res = .ok x ∧ t = s.succeed (wrap64 x) false) ∨
    (∃ c, res = .error c ∧ t = s.raise c) := by
  cases res with
  | ok x => exact .inl ⟨x, rfl, by simpa [State.finishFit] using h.symm⟩
  | error c => exact .inr ⟨c, rfl, by simpa [State.finishFit] using h.symm⟩

@[simp] theorem State.finishFit_ok (s : State) (x : Int) :
    s.finishFit (.ok x) = .next (s.succeed (wrap64 x) false) := rfl

@[simp] theorem State.finishFit_error (s : State) (c : Cause) :
    s.finishFit (.error c) = .next (s.raise c) := rfl

/-- All that a launch can do (spec/20_memory.md R33). -/
theorem execute_cases {s : State} {o : Host.Outcome State Fault Refusal} (h : execute s = o) :
    (∃ i, decode s.cmd = .ok i ∧ o = exec i s) ∨
    (∃ d, decode s.cmd = .error d ∧ o = .next (s.raise .illegalCommand)) := by
  unfold execute at h
  cases hd : decode s.cmd with
  | ok i => exact .inl ⟨i, rfl, by simpa [hd] using h.symm⟩
  | error d => exact .inr ⟨d, rfl, by simpa [hd] using h.symm⟩

/-- All that a host write can do (spec/20_memory.md R31). -/
theorem hostWrite_cases {i : BitVec 3} {data : Word} {s : State}
    {o : Host.Outcome State Fault Refusal} (h : hostWrite i data s = o) :
    (portReg i = .cmd ∧ o = execute { s with cmd := commandWord data }) ∨
    (portReg i ≠ .cmd ∧ o = .next (s.writeReg data (portReg i))) := by
  unfold hostWrite at h
  split at h
  · exact .inl ⟨‹_›, h.symm⟩
  · exact .inr ⟨‹_›, h.symm⟩

@[simp] theorem portReg_portIndex (p : PortReg) : portReg (portIndex p) = p := by
  cases p <;> decide

@[simp] theorem portIndex_portReg (i : BitVec 3) : portIndex (portReg i) = i := by
  revert i; decide

/-- All that a step can do (spec/20_memory.md R35). -/
theorem step_cases {s : State} {o : Host.Outcome State Fault Refusal} (h : step s = o) :
    (s.pending = [] ∧ o = .next s) ∨
    (∃ t rest, s.pending = t :: rest ∧ o = transact t { s with pending := rest }) := by
  unfold step at h
  split at h
  · exact .inl ⟨‹_›, h.symm⟩
  · exact .inr ⟨_, _, ‹_›, h.symm⟩

theorem step_idle {s : State} (h : s.pending = []) : step s = .next s := by
  simp [step, h]

theorem step_cons {s : State} {t : HostTxn} {rest : List HostTxn} (h : s.pending = t :: rest) :
    step s = transact t { s with pending := rest } := by
  simp [step, h]

end Sys2Proof.Machine
end

