-- ==== Sys2Proof/Laws/PerInstr.lean ====
section
/-! SUPPORT. A family of facts about each command as syntax: its word lies in its row of
spec/opcode_table.json, that is, under the row's mask it is the row's match. -/

namespace Sys2Proof

/-- The `match` of a command's row in spec/opcode_table.json. -/
def tableMatch : Instr → Word32
  | .nop _ => 0x00000000#32
  | .sfget _ => 0x00000010#32
  | .sfmaxi _ => 0x00000011#32
  | .sfmini _ => 0x00000012#32
  | .sfmul _ => 0x00000013#32
  | .sfdiv _ => 0x00000014#32
  | .sfmod _ => 0x00000015#32
  | .rinc _ => 0x00000020#32
  | .rincd _ => 0x00000021#32
  | .add64w _ => 0x00000030#32
  | .mul64 _ => 0x00000031#32
  | .divw _ => 0x00000032#32
  | .wneg _ => 0x00000033#32
  | .wfits _ => 0x00000034#32
  | .wisneg _ => 0x00000035#32
  | .wsignum _ => 0x00000036#32
  | .isqrt _ => 0x00000037#32
  | .add _ => 0x00000040#32
  | .sub _ => 0x00000041#32
  | .mul _ => 0x00000042#32
  | .mull _ => 0x00000043#32
  | .mulp10 _ => 0x00000044#32
  | .sqr _ => 0x00000045#32
  | .avg _ => 0x00000046#32
  | .abs _ => 0x00000047#32
  | .neg _ => 0x00000048#32
  | .div _ => 0x00000050#32
  | .divl _ => 0x00000051#32
  | .divp10 _ => 0x00000052#32
  | .inv _ => 0x00000053#32
  | .sqrt _ => 0x00000054#32
  | .pow _ => 0x00000055#32
  | .shl _ => 0x00000056#32
  | .shr _ => 0x00000057#32
  | .cmp _ => 0x00000060#32
  | .sgn _ => 0x00000061#32
  | .froml _ => 0x00000062#32
  | .tol _ => 0x00000063#32
  | .rescale _ => 0x00000064#32

/-- The `mask` of every row of spec/opcode_table.json: the `op` and `zero` fields. -/
def tableMask : Word32 := 0xFFFE00FF#32

/-- Under the table's mask a word is its opcode. -/
theorem assembleWord_and_mask (op : BitVec 8) (e : Engine) :
    assembleWord op e &&& tableMask = op.zeroExtend 32 := by
  have h : ∀ w : Word32, w &&& tableMask =
      (cmdZero w ++ 0#9 ++ cmdOp w : BitVec (15 + 9 + 8)) := by
    intro w
    apply BitVec.eq_of_getLsbD_eq
    intro i hi
    simp only [tableMask, cmdZero, cmdOp, BitVec.getLsbD_and, BitVec.getLsbD_append,
      BitVec.getLsbD_extractLsb']
    interval_cases i <;> simp
  rw [h, cmdZero_assembleWord, cmdOp_assembleWord]
  apply BitVec.eq_of_getLsbD_eq
  intro i hi
  simp only [BitVec.getLsbD_append]
  by_cases h8 : i < 8
  · simp [h8, hi]
  · simp [h8, BitVec.getLsbD_of_ge op i (by omega)]

/-- The word of the command lies in its row of the table. -/
def Laws.EncodesToTableRow.Statement (i : Instr) : Prop := encode i &&& tableMask = tableMatch i

theorem Laws.EncodesToTableRow.nop (e : Engine) : Laws.EncodesToTableRow.Statement (.nop e) :=
  assembleWord_and_mask _ e

theorem Laws.EncodesToTableRow.sfget (e : Engine) : Laws.EncodesToTableRow.Statement (.sfget e) :=
  assembleWord_and_mask _ e

theorem Laws.EncodesToTableRow.sfmaxi (e : Engine) : Laws.EncodesToTableRow.Statement (.sfmaxi e) :=
  assembleWord_and_mask _ e

theorem Laws.EncodesToTableRow.sfmini (e : Engine) : Laws.EncodesToTableRow.Statement (.sfmini e) :=
  assembleWord_and_mask _ e

theorem Laws.EncodesToTableRow.sfmul (e : Engine) : Laws.EncodesToTableRow.Statement (.sfmul e) :=
  assembleWord_and_mask _ e

theorem Laws.EncodesToTableRow.sfdiv (e : Engine) : Laws.EncodesToTableRow.Statement (.sfdiv e) :=
  assembleWord_and_mask _ e

theorem Laws.EncodesToTableRow.sfmod (e : Engine) : Laws.EncodesToTableRow.Statement (.sfmod e) :=
  assembleWord_and_mask _ e

theorem Laws.EncodesToTableRow.rinc (e : Engine) : Laws.EncodesToTableRow.Statement (.rinc e) :=
  assembleWord_and_mask _ e

theorem Laws.EncodesToTableRow.rincd (e : Engine) : Laws.EncodesToTableRow.Statement (.rincd e) :=
  assembleWord_and_mask _ e

theorem Laws.EncodesToTableRow.add64w (e : Engine) : Laws.EncodesToTableRow.Statement (.add64w e) :=
  assembleWord_and_mask _ e

theorem Laws.EncodesToTableRow.mul64 (e : Engine) : Laws.EncodesToTableRow.Statement (.mul64 e) :=
  assembleWord_and_mask _ e

theorem Laws.EncodesToTableRow.divw (e : Engine) : Laws.EncodesToTableRow.Statement (.divw e) :=
  assembleWord_and_mask _ e

theorem Laws.EncodesToTableRow.wneg (e : Engine) : Laws.EncodesToTableRow.Statement (.wneg e) :=
  assembleWord_and_mask _ e

theorem Laws.EncodesToTableRow.wfits (e : Engine) : Laws.EncodesToTableRow.Statement (.wfits e) :=
  assembleWord_and_mask _ e

theorem Laws.EncodesToTableRow.wisneg (e : Engine) : Laws.EncodesToTableRow.Statement (.wisneg e) :=
  assembleWord_and_mask _ e

theorem Laws.EncodesToTableRow.wsignum (e : Engine) : Laws.EncodesToTableRow.Statement (.wsignum e) :=
  assembleWord_and_mask _ e

theorem Laws.EncodesToTableRow.isqrt (e : Engine) : Laws.EncodesToTableRow.Statement (.isqrt e) :=
  assembleWord_and_mask _ e

theorem Laws.EncodesToTableRow.add (e : Engine) : Laws.EncodesToTableRow.Statement (.add e) :=
  assembleWord_and_mask _ e

theorem Laws.EncodesToTableRow.sub (e : Engine) : Laws.EncodesToTableRow.Statement (.sub e) :=
  assembleWord_and_mask _ e

theorem Laws.EncodesToTableRow.mul (e : Engine) : Laws.EncodesToTableRow.Statement (.mul e) :=
  assembleWord_and_mask _ e

theorem Laws.EncodesToTableRow.mull (e : Engine) : Laws.EncodesToTableRow.Statement (.mull e) :=
  assembleWord_and_mask _ e

theorem Laws.EncodesToTableRow.mulp10 (e : Engine) : Laws.EncodesToTableRow.Statement (.mulp10 e) :=
  assembleWord_and_mask _ e

theorem Laws.EncodesToTableRow.sqr (e : Engine) : Laws.EncodesToTableRow.Statement (.sqr e) :=
  assembleWord_and_mask _ e

theorem Laws.EncodesToTableRow.avg (e : Engine) : Laws.EncodesToTableRow.Statement (.avg e) :=
  assembleWord_and_mask _ e

theorem Laws.EncodesToTableRow.abs (e : Engine) : Laws.EncodesToTableRow.Statement (.abs e) :=
  assembleWord_and_mask _ e

theorem Laws.EncodesToTableRow.neg (e : Engine) : Laws.EncodesToTableRow.Statement (.neg e) :=
  assembleWord_and_mask _ e

theorem Laws.EncodesToTableRow.div (e : Engine) : Laws.EncodesToTableRow.Statement (.div e) :=
  assembleWord_and_mask _ e

theorem Laws.EncodesToTableRow.divl (e : Engine) : Laws.EncodesToTableRow.Statement (.divl e) :=
  assembleWord_and_mask _ e

theorem Laws.EncodesToTableRow.divp10 (e : Engine) : Laws.EncodesToTableRow.Statement (.divp10 e) :=
  assembleWord_and_mask _ e

theorem Laws.EncodesToTableRow.inv (e : Engine) : Laws.EncodesToTableRow.Statement (.inv e) :=
  assembleWord_and_mask _ e

theorem Laws.EncodesToTableRow.sqrt (e : Engine) : Laws.EncodesToTableRow.Statement (.sqrt e) :=
  assembleWord_and_mask _ e

theorem Laws.EncodesToTableRow.pow (e : Engine) : Laws.EncodesToTableRow.Statement (.pow e) :=
  assembleWord_and_mask _ e

theorem Laws.EncodesToTableRow.shl (e : Engine) : Laws.EncodesToTableRow.Statement (.shl e) :=
  assembleWord_and_mask _ e

theorem Laws.EncodesToTableRow.shr (e : Engine) : Laws.EncodesToTableRow.Statement (.shr e) :=
  assembleWord_and_mask _ e

theorem Laws.EncodesToTableRow.cmp (e : Engine) : Laws.EncodesToTableRow.Statement (.cmp e) :=
  assembleWord_and_mask _ e

theorem Laws.EncodesToTableRow.sgn (e : Engine) : Laws.EncodesToTableRow.Statement (.sgn e) :=
  assembleWord_and_mask _ e

theorem Laws.EncodesToTableRow.froml (e : Engine) : Laws.EncodesToTableRow.Statement (.froml e) :=
  assembleWord_and_mask _ e

theorem Laws.EncodesToTableRow.tol (e : Engine) : Laws.EncodesToTableRow.Statement (.tol e) :=
  assembleWord_and_mask _ e

theorem Laws.EncodesToTableRow.rescale (e : Engine) : Laws.EncodesToTableRow.Statement (.rescale e) :=
  assembleWord_and_mask _ e

end Sys2Proof
end

