-- ==== Sys2Proof/Laws/Rounding.lean ====
section
/-! SUPPORT. What the rounding functions can do, said once (spec/41_rounding_and_overflow.md). -/

namespace Sys2Proof.Machine

/-- A rounding function raises ROUNDING_REQUIRED in mode UNNECESSARY on a non-zero remainder, and
nothing else (spec/60_exceptions.md R143). -/
theorem inc_error_iff {rm : RoundingMode} {t r d : Int} {c : Cause} :
    inc rm t r d = .error c ↔ c = .roundingRequired ∧ rm = .unnecessary ∧ r ≠ 0 := by
  by_cases h : r = 0
  · simp [inc, h]
  · cases rm <;> (simp [inc, h]; try exact eq_comm)

theorem incd_error_iff {rm : RoundingMode} {t : Int} {dg : Nat} {nz ng : Bool} {c : Cause} :
    incd rm t dg nz ng = .error c ↔
      c = .roundingRequired ∧ rm = .unnecessary ∧ ¬(dg = 0 ∧ nz = false) := by
  by_cases h : dg = 0 ∧ nz = false
  · simp [incd, h]
  · cases rm <;> (simp [incd, h]; try exact eq_comm)

theorem sqrtinc_error_iff {rm : RoundingMode} {t rem : Nat} {c : Cause} :
    sqrtinc rm t rem = .error c ↔ c = .roundingRequired ∧ rm = .unnecessary ∧ rem ≠ 0 := by
  by_cases h : rem = 0
  · simp [sqrtinc, h]
  · cases rm <;> (simp [sqrtinc, h]; try exact eq_comm)

theorem roundq_error_iff {rm : RoundingMode} {n d : Int} {c : Cause} :
    roundq rm n d = .error c ↔ c = .roundingRequired ∧ rm = .unnecessary ∧ n.tmod d ≠ 0 := by
  unfold roundq
  cases h : inc rm (n.tdiv d) (n.tmod d) d with
  | ok i =>
    have := inc_error_iff (rm := rm) (t := n.tdiv d) (r := n.tmod d) (d := d) (c := c)
    simp [h] at this ⊢
    exact this
  | error c' =>
    have := inc_error_iff (rm := rm) (t := n.tdiv d) (r := n.tmod d) (d := d) (c := c)
    simpa [h] using this

/-- `ROUNDQ` answers the truncated quotient plus the increment (R74). -/
theorem roundq_ok {rm : RoundingMode} {n d x : Int} (h : roundq rm n d = .ok x) :
    ∃ i, inc rm (n.tdiv d) (n.tmod d) d = .ok i ∧ x = n.tdiv d + i := by
  unfold roundq at h
  cases hi : inc rm (n.tdiv d) (n.tmod d) d with
  | ok i => exact ⟨i, rfl, by simpa [hi] using h.symm⟩
  | error c => simp [hi] at h

/-- The increment is -1, 0 or +1 (R72). -/
theorem inc_range {rm : RoundingMode} {t r d i : Int} (h : inc rm t r d = .ok i) :
    i = -1 ∨ i = 0 ∨ i = 1 := by
  unfold inc at h
  split at h
  · simp_all
  · cases rm <;> simp only [Except.ok.injEq, reduceCtorEq] at h <;> subst h <;>
      (try split_ifs) <;> simp

/-- Nothing to round: `ROUNDQ` by 1 is the identity in every mode. -/
theorem roundq_one (rm : RoundingMode) (n : Int) : roundq rm n 1 = .ok n := by
  simp [roundq, inc]

end Sys2Proof.Machine
end

