-- ==== Sys2Proof/Laws/Power.lean ====
section
/-! SUPPORT. The cap on the exponent changes no outcome (notes/assumptions/9.md): for an operand of 64
bits, `powerPolicy` is the rule of spec/43_engine_add_mul.md R105 with the exponent uncapped. -/

namespace Sys2Proof.Machine

/-- Two exact results that are both 0, or both out of range with the same low 64 bits, have one
outcome. -/
theorem policy_congr {ov : OverflowMode} {x y : Int} (hf : fits64 x = fits64 y)
    (hw : wrap64 x = wrap64 y) : policy ov x = policy ov y := by
  simp [policy, hf, hw]

/-- A non-zero multiple of `2^64` never fits and its low 64 bits are 0. -/
theorem not_fits_of_mul {a p : Int} (ha : a ≠ 0) (hp : (2 ^ 64 : Int) ∣ p) (h0 : p ≠ 0) :
    fits64 (a * p) = false ∧ wrap64 (a * p) = 0#64 := by
  obtain ⟨m, rfl⟩ := hp
  have hk : a * m ≠ 0 := mul_ne_zero ha (fun h => h0 (by simp [h]))
  constructor
  · rw [fits64_false_iff]
    have : a * (2 ^ 64 * m) = (a * m) * 2 ^ 64 := by ring
    rw [this]
    simp only [i64Min, i64Max]
    norm_num
    omega
  · apply BitVec.eq_of_toInt_eq
    have : a * (2 ^ 64 * m) = ((2 ^ 64 : Nat) : Int) * (a * m) := by push_cast; ring
    simp only [wrap64, BitVec.toInt_ofInt, this, BitVec.toInt_zero]
    rw [Int.bmod_def, Int.mul_emod_right]
    norm_num

/-- Two divisors that both pass twice the dividend's magnitude round it the same way. -/
theorem roundq_large {rm : RoundingMode} {a d d' : Int} (hd : 0 < d) (hd' : 0 < d')
    (h : 2 * a.natAbs < d.natAbs) (h' : 2 * a.natAbs < d'.natAbs) :
    roundq rm a d = roundq rm a d' := by
  have q : ∀ e : Int, 0 < e → 2 * a.natAbs < e.natAbs → a.tdiv e = 0 ∧ a.tmod e = a := by
    intro e he hl
    have h1 : a.tdiv e = 0 := by
      apply Int.natAbs_eq_zero.mp
      rw [Int.natAbs_tdiv]
      exact Nat.div_eq_of_lt (by omega)
    exact ⟨h1, by have := Int.mul_tdiv_add_tmod a e; rw [h1] at this; omega⟩
  obtain ⟨t1, r1⟩ := q d hd h
  obtain ⟨t2, r2⟩ := q d' hd' h'
  unfold roundq
  rw [t1, r1, t2, r2]
  have e1 : ¬ d.natAbs ≤ 2 * a.natAbs := by omega
  have e2 : ¬ d'.natAbs ≤ 2 * a.natAbs := by omega
  have e3 : ¬ d.natAbs < 2 * a.natAbs := by omega
  have e4 : ¬ d'.natAbs < 2 * a.natAbs := by omega
  have e5 : ¬ 2 * a.natAbs = d.natAbs := by omega
  have e6 : ¬ 2 * a.natAbs = d'.natAbs := by omega
  have e7 : ¬ d < 0 := by omega
  have e8 : ¬ d' < 0 := by omega
  by_cases hz : a = 0
  · simp [inc, hz]
  · cases rm <;> simp [inc, hz, e1, e2, e3, e4, e5, e6, e7, e8]

/-- The capped power rule is the rule of R105: for every operand of 64 bits and every exponent, in
base ten and in base two. -/
theorem powerPolicy_eq {base : Nat} (hb : base = 10 ∨ base = 2) (e : Engine) {a : Int}
    (ha : fits64 a = true) (n : Int) :
    powerPolicy base e a n = thenPolicy e.ov (scaleByPower base e.rm a n) := by
  have b2 : 2 ∣ base := by rcases hb with rfl | rfl <;> decide
  have b0 : 2 ≤ base := by rcases hb with rfl | rfl <;> decide
  have habs : a.natAbs ≤ 2 ^ 63 := by
    simp only [fits64_iff, i64Min, i64Max] at ha
    norm_num
    omega
  have hdvd : ∀ k : Nat, 128 ≤ k → (2 ^ 64 : Int) ∣ ((base ^ k : Nat) : Int) := by
    intro k hk
    have h1 : (2 : Nat) ^ 64 ∣ base ^ k :=
      Dvd.dvd.trans (pow_dvd_pow 2 (by omega)) (pow_dvd_pow_of_dvd b2 k)
    exact_mod_cast h1
  have hbig : ∀ k : Nat, 128 ≤ k → 2 ^ 128 ≤ base ^ k := fun k hk =>
    le_trans (Nat.pow_le_pow_left b0 128) (Nat.pow_le_pow_right (by omega) hk)
  unfold powerPolicy
  by_cases hlo : n < -128
  · have hc : capExponent n = -128 := by simp only [capExponent]; omega
    have hneg : ¬ (0 : Int) ≤ n := by omega
    have hk : 128 ≤ (-n).toNat := by omega
    have h1 := hbig 128 le_rfl
    have h2 := hbig _ hk
    rw [hc]
    simp only [scaleByPower, hneg, if_false, show ¬ (0 : Int) ≤ -128 by omega]
    rw [show ((-(-128 : Int)).toNat) = 128 from rfl]
    rw [roundq_large (d := ((base ^ 128 : Nat) : Int)) (d' := ((base ^ (-n).toNat : Nat) : Int))]
    · exact_mod_cast (by omega : 0 < base ^ 128)
    · exact_mod_cast (by omega : 0 < base ^ (-n).toNat)
    · rw [Int.natAbs_natCast]; omega
    · rw [Int.natAbs_natCast]; omega
  · by_cases hhi : 128 < n
    · have hc : capExponent n = 128 := by simp only [capExponent]; omega
      have hpos : (0 : Int) ≤ n := by omega
      have hk : 128 ≤ n.toNat := by omega
      rw [hc]
      simp only [scaleByPower, hpos, if_true, show (0 : Int) ≤ 128 by omega, thenPolicy]
      rw [show ((128 : Int).toNat) = 128 from rfl]
      by_cases hz : a = 0
      · simp [hz]
      · have h1 := hbig 128 le_rfl
        have h2 := hbig _ hk
        have p1 : ((base ^ 128 : Nat) : Int) ≠ 0 := by exact_mod_cast (by omega : base ^ 128 ≠ 0)
        have p2 : ((base ^ n.toNat : Nat) : Int) ≠ 0 := by
          exact_mod_cast (by omega : base ^ n.toNat ≠ 0)
        obtain ⟨f1, w1⟩ := not_fits_of_mul hz (hdvd 128 le_rfl) p1
        obtain ⟨f2, w2⟩ := not_fits_of_mul hz (hdvd _ hk) p2
        exact policy_congr (by rw [f1, f2]) (by rw [w1, w2])
    · have hc : capExponent n = n := by simp only [capExponent]; omega
      rw [hc]

end Sys2Proof.Machine
end

