-- ==== Sys2Proof/Laws/Root.lean ====
section
/-! SUPPORT. The digit-by-digit root is the integer square root of spec/00_scope.md R8. -/

namespace Sys2Proof.Machine

/-- The loop keeps `t² ≤ n < (t + 2^k)²`. -/
theorem isqrtFrom_spec (n : Nat) : ∀ k t : Nat, t * t ≤ n → n < (t + 2 ^ k) * (t + 2 ^ k) →
    isqrtFrom n k t * isqrtFrom n k t ≤ n ∧ n < (isqrtFrom n k t + 1) * (isqrtFrom n k t + 1)
  | 0, t, h1, h2 => by simpa [isqrtFrom] using ⟨h1, h2⟩
  | k + 1, t, h1, h2 => by
    rw [isqrtFrom]
    apply isqrtFrom_spec n k
    · split
      · assumption
      · exact h1
    · have hp : t + 2 ^ (k + 1) = t + 2 ^ k + 2 ^ k := by ring
      rw [hp] at h2
      split
      · exact h2
      · omega

/-- `isqrt(n)` for every radicand of 128 bits. -/
theorem isqrt_spec {n : Nat} (h : n < 2 ^ 128) :
    isqrt n * isqrt n ≤ n ∧ n < (isqrt n + 1) * (isqrt n + 1) := by
  cases n with
  | zero => simp [isqrt]
  | succ m => exact isqrtFrom_spec (m + 1) 64 0 (Nat.zero_le _) (lt_of_lt_of_eq h (by norm_num))

/-- The root is unique (spec/00_scope.md R8). -/
theorem isqrt_eq {n t : Nat} (h : n < 2 ^ 128) (h1 : t * t ≤ n) (h2 : n < (t + 1) * (t + 1)) :
    isqrt n = t := by
  obtain ⟨g1, g2⟩ := isqrt_spec h
  have l1 : isqrt n < t + 1 := Nat.mul_self_lt_mul_self_iff.mp (lt_of_le_of_lt g1 h2)
  have l2 : t < isqrt n + 1 := Nat.mul_self_lt_mul_self_iff.mp (lt_of_le_of_lt h1 g2)
  omega

/-- SQRT's value is the root plus the increment (spec/44_engine_div_sqrt_pow.md R120). -/
theorem roundRoot_ok {rm : RoundingMode} {n : Nat} {x : Int} (h : roundRoot rm n = .ok x) :
    ∃ i, sqrtinc rm (isqrt n) (n - isqrt n * isqrt n) = .ok i ∧ x = (isqrt n : Int) + i := by
  unfold roundRoot at h
  cases hi : sqrtinc rm (isqrt n) (n - isqrt n * isqrt n) with
  | ok i => exact ⟨i, rfl, by simpa [hi] using h.symm⟩
  | error c => simp [hi] at h

/-- SQRT's rounding fault is the increment's (R120, R121). -/
theorem roundRoot_error_iff {rm : RoundingMode} {n : Nat} {c : Cause} :
    roundRoot rm n = .error c ↔ sqrtinc rm (isqrt n) (n - isqrt n * isqrt n) = .error c := by
  unfold roundRoot
  cases hi : sqrtinc rm (isqrt n) (n - isqrt n * isqrt n) with
  | ok i => simp [hi]
  | error c' => simp [hi]

end Sys2Proof.Machine
end

