-- ==== Sys2Proof/Tests/Slice0.lean ====
section
/-! SUPPORT. The model's own tests. Expected values are those of spec/: the word of each test of the
decoder is written field by field from spec/30_encoding.md R46 and R50; the outcomes are the vectors
V<n> of spec/95_test_vectors.md named beside them; the tables are those of spec/10_state.md R20 and
spec/41_rounding_and_overflow.md section 4. The witnesses show that the hypotheses of each statement
of Certificates/Slice0/Obligations.lean can be met. -/

namespace Sys2Proof.Tests

open Sys2Proof Sys2Proof.Machine

/-! ### WellFormed -/

/-- A scale of 19 is refused, whether the command uses the scale or not (R47). -/
theorem test_wf_refuses_scale_19 :
    (Instr.nop ⟨19#5, .up, .unchecked⟩).wf = false ∧ (Instr.mul ⟨31#5, .up, .unchecked⟩).wf = false := by
  decide

theorem test_wf_accepts_scale_18 : (Instr.nop ⟨18#5, .unnecessary, .checked⟩).wf = true := by decide

/-- The encoding of an ill-formed term is no command (R47). -/
theorem test_decode_refuses_ill_formed :
    decode (encode (.nop ⟨19#5, .up, .unchecked⟩)) = .error .scaleTooLarge := by decide

/-! ### Decoding: the fields `zero`, `ov`, `rm`, `s`, `op` of R46, highest first -/

theorem test_decode_nop :
    decode (0b000000000000000#15 ++ 0b1#1 ++ 0b001#3 ++ 0b00100#5 ++ 0b00000000#8 : BitVec (15 + 1 + 3 + 5 + 8)) =
      .ok (.nop ⟨4#5, .down, .checked⟩) := by decide

theorem test_decode_sfget :
    decode (0b000000000000000#15 ++ 0b0#1 ++ 0b100#3 ++ 0b01011#5 ++ 0b00010000#8 : BitVec (15 + 1 + 3 + 5 + 8)) =
      .ok (.sfget ⟨11#5, .halfUp, .unchecked⟩) := by decide

theorem test_decode_sfmaxi :
    decode (0b000000000000000#15 ++ 0b1#1 ++ 0b111#3 ++ 0b10010#5 ++ 0b00010001#8 : BitVec (15 + 1 + 3 + 5 + 8)) =
      .ok (.sfmaxi ⟨18#5, .unnecessary, .checked⟩) := by decide

theorem test_decode_sfmini :
    decode (0b000000000000000#15 ++ 0b0#1 ++ 0b010#3 ++ 0b00110#5 ++ 0b00010010#8 : BitVec (15 + 1 + 3 + 5 + 8)) =
      .ok (.sfmini ⟨6#5, .ceiling, .unchecked⟩) := by decide

theorem test_decode_sfmul :
    decode (0b000000000000000#15 ++ 0b1#1 ++ 0b101#3 ++ 0b01101#5 ++ 0b00010011#8 : BitVec (15 + 1 + 3 + 5 + 8)) =
      .ok (.sfmul ⟨13#5, .halfDown, .checked⟩) := by decide

theorem test_decode_sfdiv :
    decode (0b000000000000000#15 ++ 0b0#1 ++ 0b000#3 ++ 0b00001#5 ++ 0b00010100#8 : BitVec (15 + 1 + 3 + 5 + 8)) =
      .ok (.sfdiv ⟨1#5, .up, .unchecked⟩) := by decide

theorem test_decode_sfmod :
    decode (0b000000000000000#15 ++ 0b1#1 ++ 0b011#3 ++ 0b01000#5 ++ 0b00010101#8 : BitVec (15 + 1 + 3 + 5 + 8)) =
      .ok (.sfmod ⟨8#5, .floor, .checked⟩) := by decide

theorem test_decode_rinc :
    decode (0b000000000000000#15 ++ 0b0#1 ++ 0b110#3 ++ 0b01111#5 ++ 0b00100000#8 : BitVec (15 + 1 + 3 + 5 + 8)) =
      .ok (.rinc ⟨15#5, .halfEven, .unchecked⟩) := by decide

theorem test_decode_rincd :
    decode (0b000000000000000#15 ++ 0b1#1 ++ 0b001#3 ++ 0b00011#5 ++ 0b00100001#8 : BitVec (15 + 1 + 3 + 5 + 8)) =
      .ok (.rincd ⟨3#5, .down, .checked⟩) := by decide

theorem test_decode_add64w :
    decode (0b000000000000000#15 ++ 0b0#1 ++ 0b100#3 ++ 0b01010#5 ++ 0b00110000#8 : BitVec (15 + 1 + 3 + 5 + 8)) =
      .ok (.add64w ⟨10#5, .halfUp, .unchecked⟩) := by decide

theorem test_decode_mul64 :
    decode (0b000000000000000#15 ++ 0b1#1 ++ 0b111#3 ++ 0b10001#5 ++ 0b00110001#8 : BitVec (15 + 1 + 3 + 5 + 8)) =
      .ok (.mul64 ⟨17#5, .unnecessary, .checked⟩) := by decide

theorem test_decode_divw :
    decode (0b000000000000000#15 ++ 0b0#1 ++ 0b010#3 ++ 0b00101#5 ++ 0b00110010#8 : BitVec (15 + 1 + 3 + 5 + 8)) =
      .ok (.divw ⟨5#5, .ceiling, .unchecked⟩) := by decide

theorem test_decode_wneg :
    decode (0b000000000000000#15 ++ 0b1#1 ++ 0b101#3 ++ 0b01100#5 ++ 0b00110011#8 : BitVec (15 + 1 + 3 + 5 + 8)) =
      .ok (.wneg ⟨12#5, .halfDown, .checked⟩) := by decide

theorem test_decode_wfits :
    decode (0b000000000000000#15 ++ 0b0#1 ++ 0b000#3 ++ 0b00000#5 ++ 0b00110100#8 : BitVec (15 + 1 + 3 + 5 + 8)) =
      .ok (.wfits ⟨0#5, .up, .unchecked⟩) := by decide

theorem test_decode_wisneg :
    decode (0b000000000000000#15 ++ 0b1#1 ++ 0b011#3 ++ 0b00111#5 ++ 0b00110101#8 : BitVec (15 + 1 + 3 + 5 + 8)) =
      .ok (.wisneg ⟨7#5, .floor, .checked⟩) := by decide

theorem test_decode_wsignum :
    decode (0b000000000000000#15 ++ 0b0#1 ++ 0b110#3 ++ 0b01110#5 ++ 0b00110110#8 : BitVec (15 + 1 + 3 + 5 + 8)) =
      .ok (.wsignum ⟨14#5, .halfEven, .unchecked⟩) := by decide

theorem test_decode_isqrt :
    decode (0b000000000000000#15 ++ 0b1#1 ++ 0b001#3 ++ 0b00010#5 ++ 0b00110111#8 : BitVec (15 + 1 + 3 + 5 + 8)) =
      .ok (.isqrt ⟨2#5, .down, .checked⟩) := by decide

theorem test_decode_add :
    decode (0b000000000000000#15 ++ 0b0#1 ++ 0b100#3 ++ 0b01001#5 ++ 0b01000000#8 : BitVec (15 + 1 + 3 + 5 + 8)) =
      .ok (.add ⟨9#5, .halfUp, .unchecked⟩) := by decide

theorem test_decode_sub :
    decode (0b000000000000000#15 ++ 0b1#1 ++ 0b111#3 ++ 0b10000#5 ++ 0b01000001#8 : BitVec (15 + 1 + 3 + 5 + 8)) =
      .ok (.sub ⟨16#5, .unnecessary, .checked⟩) := by decide

theorem test_decode_mul :
    decode (0b000000000000000#15 ++ 0b0#1 ++ 0b010#3 ++ 0b00100#5 ++ 0b01000010#8 : BitVec (15 + 1 + 3 + 5 + 8)) =
      .ok (.mul ⟨4#5, .ceiling, .unchecked⟩) := by decide

theorem test_decode_mull :
    decode (0b000000000000000#15 ++ 0b1#1 ++ 0b101#3 ++ 0b01011#5 ++ 0b01000011#8 : BitVec (15 + 1 + 3 + 5 + 8)) =
      .ok (.mull ⟨11#5, .halfDown, .checked⟩) := by decide

theorem test_decode_mulp10 :
    decode (0b000000000000000#15 ++ 0b0#1 ++ 0b000#3 ++ 0b10010#5 ++ 0b01000100#8 : BitVec (15 + 1 + 3 + 5 + 8)) =
      .ok (.mulp10 ⟨18#5, .up, .unchecked⟩) := by decide

theorem test_decode_sqr :
    decode (0b000000000000000#15 ++ 0b1#1 ++ 0b011#3 ++ 0b00110#5 ++ 0b01000101#8 : BitVec (15 + 1 + 3 + 5 + 8)) =
      .ok (.sqr ⟨6#5, .floor, .checked⟩) := by decide

theorem test_decode_avg :
    decode (0b000000000000000#15 ++ 0b0#1 ++ 0b110#3 ++ 0b01101#5 ++ 0b01000110#8 : BitVec (15 + 1 + 3 + 5 + 8)) =
      .ok (.avg ⟨13#5, .halfEven, .unchecked⟩) := by decide

theorem test_decode_abs :
    decode (0b000000000000000#15 ++ 0b1#1 ++ 0b001#3 ++ 0b00001#5 ++ 0b01000111#8 : BitVec (15 + 1 + 3 + 5 + 8)) =
      .ok (.abs ⟨1#5, .down, .checked⟩) := by decide

theorem test_decode_neg :
    decode (0b000000000000000#15 ++ 0b0#1 ++ 0b100#3 ++ 0b01000#5 ++ 0b01001000#8 : BitVec (15 + 1 + 3 + 5 + 8)) =
      .ok (.neg ⟨8#5, .halfUp, .unchecked⟩) := by decide

theorem test_decode_div :
    decode (0b000000000000000#15 ++ 0b1#1 ++ 0b111#3 ++ 0b01111#5 ++ 0b01010000#8 : BitVec (15 + 1 + 3 + 5 + 8)) =
      .ok (.div ⟨15#5, .unnecessary, .checked⟩) := by decide

theorem test_decode_divl :
    decode (0b000000000000000#15 ++ 0b0#1 ++ 0b010#3 ++ 0b00011#5 ++ 0b01010001#8 : BitVec (15 + 1 + 3 + 5 + 8)) =
      .ok (.divl ⟨3#5, .ceiling, .unchecked⟩) := by decide

theorem test_decode_divp10 :
    decode (0b000000000000000#15 ++ 0b1#1 ++ 0b101#3 ++ 0b01010#5 ++ 0b01010010#8 : BitVec (15 + 1 + 3 + 5 + 8)) =
      .ok (.divp10 ⟨10#5, .halfDown, .checked⟩) := by decide

theorem test_decode_inv :
    decode (0b000000000000000#15 ++ 0b0#1 ++ 0b000#3 ++ 0b10001#5 ++ 0b01010011#8 : BitVec (15 + 1 + 3 + 5 + 8)) =
      .ok (.inv ⟨17#5, .up, .unchecked⟩) := by decide

theorem test_decode_sqrt :
    decode (0b000000000000000#15 ++ 0b1#1 ++ 0b011#3 ++ 0b00101#5 ++ 0b01010100#8 : BitVec (15 + 1 + 3 + 5 + 8)) =
      .ok (.sqrt ⟨5#5, .floor, .checked⟩) := by decide

theorem test_decode_pow :
    decode (0b000000000000000#15 ++ 0b0#1 ++ 0b110#3 ++ 0b01100#5 ++ 0b01010101#8 : BitVec (15 + 1 + 3 + 5 + 8)) =
      .ok (.pow ⟨12#5, .halfEven, .unchecked⟩) := by decide

theorem test_decode_shl :
    decode (0b000000000000000#15 ++ 0b1#1 ++ 0b001#3 ++ 0b00000#5 ++ 0b01010110#8 : BitVec (15 + 1 + 3 + 5 + 8)) =
      .ok (.shl ⟨0#5, .down, .checked⟩) := by decide

theorem test_decode_shr :
    decode (0b000000000000000#15 ++ 0b0#1 ++ 0b100#3 ++ 0b00111#5 ++ 0b01010111#8 : BitVec (15 + 1 + 3 + 5 + 8)) =
      .ok (.shr ⟨7#5, .halfUp, .unchecked⟩) := by decide

theorem test_decode_cmp :
    decode (0b000000000000000#15 ++ 0b1#1 ++ 0b111#3 ++ 0b01110#5 ++ 0b01100000#8 : BitVec (15 + 1 + 3 + 5 + 8)) =
      .ok (.cmp ⟨14#5, .unnecessary, .checked⟩) := by decide

theorem test_decode_sgn :
    decode (0b000000000000000#15 ++ 0b0#1 ++ 0b010#3 ++ 0b00010#5 ++ 0b01100001#8 : BitVec (15 + 1 + 3 + 5 + 8)) =
      .ok (.sgn ⟨2#5, .ceiling, .unchecked⟩) := by decide

theorem test_decode_froml :
    decode (0b000000000000000#15 ++ 0b1#1 ++ 0b101#3 ++ 0b01001#5 ++ 0b01100010#8 : BitVec (15 + 1 + 3 + 5 + 8)) =
      .ok (.froml ⟨9#5, .halfDown, .checked⟩) := by decide

theorem test_decode_tol :
    decode (0b000000000000000#15 ++ 0b0#1 ++ 0b000#3 ++ 0b10000#5 ++ 0b01100011#8 : BitVec (15 + 1 + 3 + 5 + 8)) =
      .ok (.tol ⟨16#5, .up, .unchecked⟩) := by decide

theorem test_decode_rescale :
    decode (0b000000000000000#15 ++ 0b1#1 ++ 0b011#3 ++ 0b00100#5 ++ 0b01100100#8 : BitVec (15 + 1 + 3 + 5 + 8)) =
      .ok (.rescale ⟨4#5, .floor, .checked⟩) := by decide

/-- The three reasons of R47, and their order (spec/95_test_vectors.md section 2.1). -/
theorem test_decode_illegal :
    decode 0x80000040#32 = .error .reservedBits ∧ decode 0x00001F40#32 = .error .scaleTooLarge ∧
    decode 0x00000065#32 = .error .unknownOpcode ∧ decode 0x000000FF#32 = .error .unknownOpcode := by
  decide

/-- The host's numbering of an instruction's bits: one word, bits above it 0. -/
theorem test_decodeTableWord :
    decodeTableWord 32 0x00018450 = some (.div ⟨4#5, .halfUp, .checked⟩) ∧
    decodeTableWord 32 0x00020000 = none := by decide

/-! ### One command on a small state -/

/-- Operands in `A`, `B`, `C` and `W`; the rest as after reset. -/
def st (a b c w : Int) : State :=
  { State.reset with
    a := wrap64 a
    b := wrap64 b
    c := wrap64 c
    wl := (wrap128 w).extractLsb' 0 64
    wh := (wrap128 w).extractLsb' 64 64 }

/-- What a command leaves in `R`, `W` and `STATUS`, as numbers. -/
def outcome (i : Instr) (s : State) : Option (Int × Int × Nat) :=
  match exec i s with
  | .next t => some (s64 t.r, s128 t.wide, t.status.toNat)
  | .fault _ => none
  | .refused _ => none

theorem test_nop_V186 :
    outcome (.nop ⟨18#5, .unnecessary, .checked⟩) (st (0) (0) (0) (0)) = some (0, 0, 0x00) := by decide

theorem test_sfget_V3 :
    outcome (.sfget ⟨18#5, .up, .unchecked⟩) (st (0) (0) (0) (0)) = some (1000000000000000000, 0, 0x00) := by decide

theorem test_sfmaxi_V5 :
    outcome (.sfmaxi ⟨1#5, .up, .unchecked⟩) (st (0) (0) (0) (0)) = some (922337203685477580, 0, 0x00) := by decide

theorem test_sfmini_V7 :
    outcome (.sfmini ⟨0#5, .up, .unchecked⟩) (st (0) (0) (0) (0)) = some (-9223372036854775808, 0, 0x00) := by decide

theorem test_sfmini_V9 :
    outcome (.sfmini ⟨18#5, .up, .unchecked⟩) (st (0) (0) (0) (0)) = some (-9, 0, 0x00) := by decide

theorem test_sfmul_V13 :
    outcome (.sfmul ⟨1#5, .up, .checked⟩) (st (9223372036854775807) (0) (0) (0)) = some (-10, 0, 0x02) := by decide

theorem test_sfmul_V16 :
    outcome (.sfmul ⟨18#5, .up, .unchecked⟩) (st (-9) (0) (0) (0)) = some (-9000000000000000000, 0, 0x00) := by decide

theorem test_sfdiv_V19 :
    outcome (.sfdiv ⟨4#5, .up, .unchecked⟩) (st (-123456) (0) (0) (0)) = some (-12, 0, 0x00) := by decide

theorem test_sfdiv_V21 :
    outcome (.sfdiv ⟨18#5, .up, .unchecked⟩) (st (-9223372036854775808) (0) (0) (0)) = some (-9, 0, 0x00) := by decide

theorem test_sfmod_V24 :
    outcome (.sfmod ⟨4#5, .up, .unchecked⟩) (st (-123456) (0) (0) (0)) = some (-3456, 0, 0x00) := by decide

theorem test_sfmod_V26 :
    outcome (.sfmod ⟨18#5, .up, .unchecked⟩) (st (-9223372036854775808) (0) (0) (0)) = some (-223372036854775808, 0, 0x00) := by decide

theorem test_rinc_V66 :
    outcome (.rinc ⟨0#5, .halfUp, .unchecked⟩) (st (0) (9223372036854775807) (-9223372036854775808) (0)) = some (-1, 0, 0x00) := by decide

theorem test_rinc_V64 :
    outcome (.rinc ⟨0#5, .halfEven, .unchecked⟩) (st (3333) (15000) (30000) (0)) = some (1, 0, 0x00) := by decide

theorem test_rincd_V99 :
    outcome (.rincd ⟨0#5, .halfEven, .unchecked⟩) (st (0) (21) (0) (0)) = some (1, 0, 0x00) := by decide

theorem test_rincd_V107 :
    outcome (.rincd ⟨0#5, .unnecessary, .unchecked⟩) (st (0) (15) (0) (0)) = some (0, 0, 0x41) := by decide

theorem test_add64w_V109 :
    outcome (.add64w ⟨0#5, .up, .unchecked⟩) (st (-9223372036854775808) (-9223372036854775808) (0) (0)) = some (0, -18446744073709551616, 0x02) := by decide

theorem test_add64w_V113 :
    outcome (.add64w ⟨0#5, .up, .unchecked⟩) (st (-9223372036854775808) (-1) (0) (0)) = some (0, -9223372036854775809, 0x02) := by decide

theorem test_mul64_V118 :
    outcome (.mul64 ⟨0#5, .up, .unchecked⟩) (st (4611686018427387903) (30000) (0) (0)) = some (0, 138350580552821637090000, 0x02) := by decide

theorem test_mul64_V119 :
    outcome (.mul64 ⟨0#5, .up, .unchecked⟩) (st (-3333) (3333) (0) (0)) = some (0, -11108889, 0x00) := by decide

theorem test_divw_V125 :
    outcome (.divw ⟨0#5, .up, .unchecked⟩) (st (0) (30000) (0) (-100000000)) = some (-10000, -3333, 0x00) := by decide

theorem test_divw_V134 :
    outcome (.divw ⟨0#5, .up, .unchecked⟩) (st (0) (-1) (0) (-170141183460469231731687303715884105728)) = some (0, -170141183460469231731687303715884105728, 0x02) := by decide

theorem test_wneg_V147 :
    outcome (.wneg ⟨0#5, .up, .unchecked⟩) (st (0) (0) (0) (-170141183460469231731687303715884105728)) = some (0, -170141183460469231731687303715884105728, 0x02) := by decide

theorem test_wneg_V143 :
    outcome (.wneg ⟨0#5, .up, .unchecked⟩) (st (0) (0) (0) (-5)) = some (0, 5, 0x00) := by decide

theorem test_wfits_V152 :
    outcome (.wfits ⟨0#5, .up, .unchecked⟩) (st (0) (0) (0) (-9223372036854775808)) = some (1, -9223372036854775808, 0x00) := by decide

theorem test_wfits_V153 :
    outcome (.wfits ⟨0#5, .up, .unchecked⟩) (st (0) (0) (0) (-9223372036854775809)) = some (0, -9223372036854775809, 0x00) := by decide

theorem test_wisneg_V159 :
    outcome (.wisneg ⟨0#5, .up, .unchecked⟩) (st (0) (0) (0) (-170141183460469231731687303715884105728)) = some (1, -170141183460469231731687303715884105728, 0x00) := by decide

theorem test_wisneg_V160 :
    outcome (.wisneg ⟨0#5, .up, .unchecked⟩) (st (0) (0) (0) (170141183460469231731687303715884105727)) = some (0, 170141183460469231731687303715884105727, 0x00) := by decide

theorem test_wsignum_V162 :
    outcome (.wsignum ⟨0#5, .up, .unchecked⟩) (st (0) (0) (0) (-2)) = some (-1, -2, 0x00) := by decide

theorem test_wsignum_V165 :
    outcome (.wsignum ⟨0#5, .up, .unchecked⟩) (st (0) (0) (0) (18446744073709551616)) = some (1, 18446744073709551616, 0x00) := by decide

theorem test_isqrt_V181 :
    outcome (.isqrt ⟨0#5, .up, .unchecked⟩) (st (0) (0) (0) (170141183460469231731687303715884105727)) = some (-5402926248376769404, 9119501915260492783, 0x02) := by decide +kernel

theorem test_isqrt_V183 :
    outcome (.isqrt ⟨0#5, .up, .unchecked⟩) (st (0) (0) (0) (-1)) = some (0, -1, 0x41) := by decide

theorem test_add_V190 :
    outcome (.add ⟨0#5, .up, .unchecked⟩) (st (-9223372036854775808) (-1) (0) (0)) = some (9223372036854775807, 0, 0x02) := by decide

theorem test_add_V189 :
    outcome (.add ⟨0#5, .up, .checked⟩) (st (9223372036854775807) (1) (0) (0)) = some (0, 0, 0x13) := by decide

theorem test_sub_V196 :
    outcome (.sub ⟨0#5, .up, .unchecked⟩) (st (0) (-9223372036854775808) (0) (0)) = some (-9223372036854775808, 0, 0x02) := by decide

theorem test_sub_V199 :
    outcome (.sub ⟨0#5, .up, .checked⟩) (st (-1) (-9223372036854775808) (0) (0)) = some (9223372036854775807, 0, 0x00) := by decide

theorem test_mul_V217 :
    outcome (.mul ⟨4#5, .halfEven, .unchecked⟩) (st (-3333) (3333) (0) (0)) = some (-1111, 0, 0x00) := by decide

theorem test_mul_V233 :
    outcome (.mul ⟨1#5, .unnecessary, .checked⟩) (st (3689348814741910323) (26) (0) (0)) = some (0, 0, 0x21) := by decide

theorem test_mull_V236 :
    outcome (.mull ⟨0#5, .up, .unchecked⟩) (st (-9223372036854775808) (-1) (0) (0)) = some (-9223372036854775808, 0, 0x02) := by decide

theorem test_mull_V235 :
    outcome (.mull ⟨0#5, .up, .checked⟩) (st (-9223372036854775808) (-1) (0) (0)) = some (0, 0, 0x13) := by decide

theorem test_mulp10_V249 :
    outcome (.mulp10 ⟨0#5, .up, .checked⟩) (st (0) (2147483647) (0) (0)) = some (0, 0, 0x00) := by decide

theorem test_mulp10_V255 :
    outcome (.mulp10 ⟨0#5, .up, .unchecked⟩) (st (-1) (-2147483648) (0) (0)) = some (-1, 0, 0x00) := by decide

theorem test_sqr_V262 :
    outcome (.sqr ⟨4#5, .ceiling, .unchecked⟩) (st (-3333) (0) (0) (0)) = some (1111, 0, 0x00) := by decide

theorem test_sqr_V266 :
    outcome (.sqr ⟨18#5, .down, .unchecked⟩) (st (-9223372036854775808) (0) (0) (0)) = some (-7163128638313142215, 0, 0x02) := by decide

theorem test_avg_V277 :
    outcome (.avg ⟨0#5, .halfEven, .unchecked⟩) (st (-9223372036854775808) (-9223372036854775807) (0) (0)) = some (-9223372036854775808, 0, 0x00) := by decide

theorem test_avg_V288 :
    outcome (.avg ⟨0#5, .unnecessary, .unchecked⟩) (st (9223372036854775807) (-9223372036854775808) (0) (0)) = some (0, 0, 0x21) := by decide

theorem test_abs_V291 :
    outcome (.abs ⟨0#5, .up, .unchecked⟩) (st (-9223372036854775808) (0) (0) (0)) = some (-9223372036854775808, 0, 0x02) := by decide

theorem test_abs_V290 :
    outcome (.abs ⟨0#5, .up, .unchecked⟩) (st (-123450) (0) (0) (0)) = some (123450, 0, 0x00) := by decide

theorem test_neg_V296 :
    outcome (.neg ⟨0#5, .up, .checked⟩) (st (-9223372036854775808) (0) (0) (0)) = some (0, 0, 0x13) := by decide

theorem test_neg_V294 :
    outcome (.neg ⟨0#5, .up, .unchecked⟩) (st (123450) (0) (0) (0)) = some (-123450, 0, 0x00) := by decide

theorem test_div_V308 :
    outcome (.div ⟨4#5, .up, .unchecked⟩) (st (10000) (-30000) (0) (0)) = some (-3334, 0, 0x00) := by decide

theorem test_div_V326 :
    outcome (.div ⟨4#5, .up, .checked⟩) (st (-9223372036854775808) (-10000) (0) (0)) = some (0, 0, 0x13) := by decide

theorem test_divl_V344 :
    outcome (.divl ⟨0#5, .halfEven, .unchecked⟩) (st (4611686018427387904) (-9223372036854775808) (0) (0)) = some (0, 0, 0x00) := by decide

theorem test_divl_V339 :
    outcome (.divl ⟨0#5, .up, .checked⟩) (st (-9223372036854775808) (-1) (0) (0)) = some (0, 0, 0x13) := by decide

theorem test_divp10_V351 :
    outcome (.divp10 ⟨0#5, .up, .unchecked⟩) (st (-1) (2147483647) (0) (0)) = some (-1, 0, 0x00) := by decide

theorem test_divp10_V348 :
    outcome (.divp10 ⟨0#5, .up, .checked⟩) (st (123450) (-2) (0) (0)) = some (12345000, 0, 0x00) := by decide

theorem test_inv_V361 :
    outcome (.inv ⟨10#5, .up, .unchecked⟩) (st (1) (0) (0) (0)) = some (7766279631452241920, 0, 0x02) := by decide

theorem test_inv_V364 :
    outcome (.inv ⟨4#5, .halfUp, .unchecked⟩) (st (200000000) (0) (0) (0)) = some (1, 0, 0x00) := by decide

theorem test_sqrt_V387 :
    outcome (.sqrt ⟨18#5, .halfUp, .unchecked⟩) (st (9223372036854775807) (0) (0) (0)) = some (3037000499976049692, 0, 0x00) := by decide +kernel

theorem test_sqrt_V385 :
    outcome (.sqrt ⟨4#5, .unnecessary, .unchecked⟩) (st (-1) (0) (0) (0)) = some (0, 0, 0x41) := by decide

theorem test_pow_V395 :
    outcome (.pow ⟨2#5, .halfUp, .unchecked⟩) (st (103) (4) (0) (0)) = some (112, 0, 0x00) := by decide

theorem test_pow_V403 :
    outcome (.pow ⟨4#5, .down, .checked⟩) (st (1) (-2) (0) (0)) = some (0, 0, 0x31) := by decide

theorem test_shl_V420 :
    outcome (.shl ⟨0#5, .up, .unchecked⟩) (st (3) (64) (0) (0)) = some (0, 0, 0x02) := by decide

theorem test_shl_V418 :
    outcome (.shl ⟨0#5, .up, .checked⟩) (st (-1) (63) (0) (0)) = some (-9223372036854775808, 0, 0x00) := by decide

theorem test_shr_V438 :
    outcome (.shr ⟨0#5, .halfEven, .unchecked⟩) (st (-9223372036854775808) (64) (0) (0)) = some (0, 0, 0x00) := by decide

theorem test_shr_V428 :
    outcome (.shr ⟨0#5, .floor, .unchecked⟩) (st (-5) (1) (0) (0)) = some (-3, 0, 0x00) := by decide

theorem test_cmp_V444 :
    outcome (.cmp ⟨0#5, .up, .unchecked⟩) (st (-9223372036854775808) (9223372036854775807) (0) (0)) = some (-1, 0, 0x00) := by decide

theorem test_cmp_V443 :
    outcome (.cmp ⟨0#5, .up, .unchecked⟩) (st (123450) (10000) (0) (0)) = some (1, 0, 0x00) := by decide

theorem test_sgn_V449 :
    outcome (.sgn ⟨0#5, .up, .unchecked⟩) (st (-9223372036854775808) (0) (0) (0)) = some (-1, 0, 0x00) := by decide

theorem test_sgn_V447 :
    outcome (.sgn ⟨0#5, .up, .unchecked⟩) (st (-5) (0) (0) (0)) = some (-1, 0, 0x00) := by decide

theorem test_froml_V455 :
    outcome (.froml ⟨4#5, .up, .checked⟩) (st (-922337203685477) (0) (0) (0)) = some (-9223372036854770000, 0, 0x00) := by decide

theorem test_froml_V454 :
    outcome (.froml ⟨4#5, .up, .unchecked⟩) (st (922337203685478) (0) (0) (0)) = some (-9223372036854771616, 0, 0x02) := by decide

theorem test_tol_V472 :
    outcome (.tol ⟨4#5, .floor, .unchecked⟩) (st (-125000) (0) (0) (0)) = some (-13, 0, 0x00) := by decide

theorem test_tol_V480 :
    outcome (.tol ⟨18#5, .up, .unchecked⟩) (st (-9223372036854775808) (0) (0) (0)) = some (-10, 0, 0x00) := by decide

theorem test_rescale_V483 :
    outcome (.rescale ⟨4#5, .halfUp, .unchecked⟩) (st (1234567) (6) (0) (0)) = some (12346, 0, 0x00) := by decide

theorem test_rescale_V490 :
    outcome (.rescale ⟨4#5, .up, .checked⟩) (st (5) (-1) (0) (0)) = some (500000, 0, 0x00) := by decide

/-! ### The printed tables -/

/-- The rows of 10_state.md R20. -/
def printedScaleTable : List (BitVec 5 × Int × Int × Int) :=
  [(0#5, 1, 9223372036854775807, -9223372036854775808),
   (1#5, 10, 922337203685477580, -922337203685477580),
   (2#5, 100, 92233720368547758, -92233720368547758),
   (3#5, 1000, 9223372036854775, -9223372036854775),
   (4#5, 10000, 922337203685477, -922337203685477),
   (5#5, 100000, 92233720368547, -92233720368547),
   (6#5, 1000000, 9223372036854, -9223372036854),
   (7#5, 10000000, 922337203685, -922337203685),
   (8#5, 100000000, 92233720368, -92233720368),
   (9#5, 1000000000, 9223372036, -9223372036),
   (10#5, 10000000000, 922337203, -922337203),
   (11#5, 100000000000, 92233720, -92233720),
   (12#5, 1000000000000, 9223372, -9223372),
   (13#5, 10000000000000, 922337, -922337),
   (14#5, 100000000000000, 92233, -92233),
   (15#5, 1000000000000000, 9223, -9223),
   (16#5, 10000000000000000, 922, -922),
   (17#5, 100000000000000000, 92, -92),
   (18#5, 1000000000000000000, 9, -9)]

theorem test_scale_table :
    ∀ row ∈ printedScaleTable, scaleFactor row.1 = row.2.1 ∧ maxIntegerPart row.1 = row.2.2.1 ∧
      minIntegerPart row.1 = row.2.2.2 := by decide

/-- The outcome tables of 41_rounding_and_overflow.md section 4: dividend, divisor, and the rounded
quotient under UP, DOWN, CEILING, FLOOR, HALF_UP, HALF_DOWN, HALF_EVEN. -/
def printedRoundingTable : List (Int × Int × List Int) :=
  [(55, 10, [6, 5, 6, 5, 6, 5, 6]),
   (25, 10, [3, 2, 3, 2, 3, 2, 2]),
   (16, 10, [2, 1, 2, 1, 2, 2, 2]),
   (11, 10, [2, 1, 2, 1, 1, 1, 1]),
   (10, 10, [1, 1, 1, 1, 1, 1, 1]),
   (-10, 10, [-1, -1, -1, -1, -1, -1, -1]),
   (-11, 10, [-2, -1, -1, -2, -1, -1, -1]),
   (-16, 10, [-2, -1, -1, -2, -2, -2, -2]),
   (-25, 10, [-3, -2, -2, -3, -3, -2, -2]),
   (-55, 10, [-6, -5, -5, -6, -6, -5, -6]),
   (7, -2, [-4, -3, -3, -4, -4, -3, -4]),
   (-7, -2, [4, 3, 4, 3, 4, 3, 4]),
   (1, -3, [-1, 0, 0, -1, 0, 0, 0]),
   (-1, 3, [-1, 0, 0, -1, 0, 0, 0]),
   (5, -10, [-1, 0, 0, -1, -1, 0, 0]),
   (15, -10, [-2, -1, -1, -2, -2, -1, -2])]

theorem test_rounding_table :
    ∀ row ∈ printedRoundingTable,
      [RoundingMode.up, .down, .ceiling, .floor, .halfUp, .halfDown, .halfEven].map
        (fun rm => roundq rm row.1 row.2.1) = row.2.2.map Except.ok := by decide

/-- The last column of the first table: UNNECESSARY faults but for the exact rows. -/
theorem test_rounding_unnecessary :
    roundq .unnecessary 55 10 = .error .roundingRequired ∧ roundq .unnecessary 10 10 = .ok 1 ∧
    roundq .unnecessary (-10) 10 = .ok (-1) ∧ roundq .unnecessary (-55) 10 = .error .roundingRequired := by
  decide

/-! ### One step -/

/-- 95_test_vectors.md section 2.1: bits 63:32 of the datum are ignored, bit 17 of the word is not. -/
theorem test_datum_upper_half :
    decodeDatum 0xFFFFFFFF00000040#64 = .ok (.add ⟨0#5, .up, .unchecked⟩) ∧
    decodeDatum 0x0000000100020000#64 = .error .reservedBits := by decide

/-- The state a step leaves, where it answers one. -/
def after (s : State) : Option State :=
  match step s with
  | .next t => some t
  | .fault _ => none
  | .refused _ => none

/-- The first command after reset (section 2.2, step 2, without the operand writes). -/
theorem test_first_command_after_reset :
    (after (State.reset.withFetchWord 32 0x00000410)).map (fun t => (t.r, t.status, t.cmd, t.pending)) =
      some (10000#64, 0#32, 0x410#32, []) := by decide

/-- Section 2.9, after the table: ILLEGAL_COMMAND comes before DIVISION_BY_ZERO. -/
theorem test_illegal_before_zero_divisor :
    (after ((st 1 0 0 0).withFetchWord 32 0x00021450)).map (fun t => (t.status, t.r, t.cmd)) =
      some (0x51#32, 0#64, 0x00021450#32) := by decide

/-- Section 2.2, steps 3 and 4: writes to `R` and `STATUS` are ignored. -/
theorem test_read_only_registers :
    after { st 2 1 0 0 with pending := [.write 5#3 99#64] } = some (st 2 1 0 0) ∧
    after { st 2 1 0 0 with pending := [.write 6#3 0xFF#64] } = some (st 2 1 0 0) := by decide

/-- Section 2.2, step 5: a read returns the register and changes none. -/
theorem test_host_read :
    after { st 2 1 0 0 with pending := [.read 0#3] } = some { st 2 1 0 0 with readData := some 2#64 } := by
  decide

/-- 30_encoding.md R55: the word of `cmd DIV s=4 rm=HALF_UP ov=C`. -/
theorem test_script_line :
    assembleLine (.cmd (.div ⟨4#5, .halfUp, .checked⟩)) = [.write 7#3 0x00018450#64] := by decide

/-! ### Witnesses for the statements' hypotheses -/

/-- Every mode rounds an integer to itself. -/
theorem rounds_int (rm : RoundingMode) {q : ℝ} {x : ℤ} (h : q = x) : RoundsTo rm q x := by
  subst h
  cases rm <;> simp [RoundsTo, mul_self_nonneg]

/-- Two and a half is no integer. -/
theorem five_halves_ne (x : ℤ) : (5 / 2 : ℝ) ≠ x := by
  intro h
  have h2 : (5 : ℝ) = ((2 * x : ℤ) : ℝ) := by push_cast; linarith
  have h3 : (5 : ℤ) = 2 * x := by exact_mod_cast h2
  omega

/-- Twelve and a half is no integer. -/
theorem twentyfive_halves_ne (x : ℤ) : (25 / 2 : ℝ) ≠ x := by
  intro h
  have h2 : (25 : ℝ) = ((2 * x : ℤ) : ℝ) := by push_cast; linarith
  have h3 : (25 : ℤ) = 2 * x := by exact_mod_cast h2
  omega

/-- The three hypotheses of `RoundedCommand` met: exact and in range, out of range, not exact. -/
def RoundedWitness (e₁ e₂ e₃ : Engine) (q₁ q₂ q₃ : ℝ) (x₁ x₂ : ℤ) : Prop :=
  (RoundsTo e₁.rm q₁ x₁ ∧ (e₁.ov = .unchecked ∨ fits64 x₁ = true)) ∧
  (RoundsTo e₂.rm q₂ x₂ ∧ e₂.ov = .checked ∧ fits64 x₂ = false) ∧
  (e₃.rm = .unnecessary ∧ ∀ x : ℤ, q₃ ≠ x)

theorem roundedWitness_intro {e₁ e₂ e₃ : Engine} {q₁ q₂ q₃ : ℝ} {x₁ x₂ : ℤ}
    (h₁ : q₁ = x₁) (f₁ : fits64 x₁ = true) (h₂ : q₂ = x₂) (c₂ : e₂.ov = .checked)
    (f₂ : fits64 x₂ = false) (u : e₃.rm = .unnecessary) (h₃ : q₃ = 5 / 2) :
    RoundedWitness e₁ e₂ e₃ q₁ q₂ q₃ x₁ x₂ :=
  ⟨⟨rounds_int _ h₁, .inr f₁⟩, ⟨rounds_int _ h₂, c₂, f₂⟩, ⟨u, fun x => h₃ ▸ five_halves_ne x⟩⟩

/-- CHECKED, UP, at a scale. -/
def eC (s : BitVec 5) : Engine := ⟨s, .up, .checked⟩

/-- UNNECESSARY, CHECKED, at a scale. -/
def eU (s : BitVec 5) : Engine := ⟨s, .unnecessary, .checked⟩

theorem s64_wrap {n : Int} (h : fits64 n = true) : s64 (wrap64 n) = n := s64_wrap64 h

/-- The `i32` argument of a small state. -/
def n32 (s : State) : Int := s32 (s.b.extractLsb' 0 32)

theorem witness_DecodeOfEncode : (Instr.nop (eU 18#5)).wf = true := by decide

theorem witness_EncodeOfDecode : decode 0x0001F200#32 = .ok (.nop (eU 18#5)) := by decide

theorem witness_LegalWordsExactly :
    decode 0x0001F264#32 = .ok (.rescale (eU 18#5)) ∧
    decode 0x00000000#32 = .ok (.nop ⟨0#5, .up, .unchecked⟩) := by decide

theorem witness_OpcodeMapDecodes :
    (eU 18#5).wf = true ∧
    (7, (eU 18#5).rm) ∈ [(0, RoundingMode.up), (7, .unnecessary)] ∧
    (1, (eU 18#5).ov) ∈ [(0, OverflowMode.unchecked), (1, .checked)] ∧
    (0x64, Instr.rescale (eU 18#5)) ∈ [(0x00, Instr.nop (eU 18#5)), (0x64, .rescale (eU 18#5))] := by
  decide

theorem witness_StepRunsDecodedCommand :
    (State.reset.withFetchWord 32 0x00000040).pending = .write 7#3 0x40#64 :: [] ∧
    decode ((0x40#64 : Word).extractLsb' 0 32) = .ok (.add ⟨0#5, .up, .unchecked⟩) := by decide

/-- One word for each reason, at the edge of the legal ones: bit 17, scale 19, opcode `0x65`. -/
theorem witness_IllegalWordFaults :
    (0x00020000#64 : Word).toNat / 2 ^ 17 % 2 ^ 15 ≠ 0 ∧
    18 < (0x00001300#64 : Word).toNat / 2 ^ 8 % 2 ^ 5 ∧
    (0x00000065#64 : Word).toNat % 2 ^ 8 ∉ [0x00, 0x60, 0x61, 0x62, 0x63, 0x64] := by decide

/-- Each index of the port, written and read, and an empty stream. -/
theorem witness_StepTakesNextTransaction :
    (∀ i : BitVec 3,
      { State.reset with pending := [.write i 1#64] }.pending = .write i 1#64 :: [] ∧
      { State.reset with pending := [.read i] }.pending = .read i :: []) ∧
    State.reset.pending = [] :=
  ⟨fun _ => ⟨rfl, rfl⟩, rfl⟩

theorem witness_ResetInputClears :
    { State.reset with pending := [.reset] }.pending = .reset :: [] := rfl

/-- Reset is explained and a step from it answers; so is a faulted state, and so is a state whose
`CMD` holds no command. -/
theorem witness_StatusStaysExplained :
    (StatusExplained State.reset ∧ step State.reset = .next State.reset) ∧
    StatusExplained { State.reset with cmd := 0x00010040#32, status := 0x13#32 } ∧
    StatusExplained { State.reset with cmd := 0xFFFFFFFF#32, status := 0x51#32 } := by
  refine ⟨⟨?_, rfl⟩, ?_, ?_⟩
  · have h : decode State.reset.cmd = .ok (.nop ⟨0#5, .up, .unchecked⟩) := by decide
    simp only [StatusExplained, h]
    exact .inl rfl
  · have h : decode 0x00010040#32 = .ok (.add ⟨0#5, .up, .checked⟩) := by decide
    simp [StatusExplained, h, Instr.mayRaise, Instr.usesOv, Instr.engine]
  · have h : decode 0xFFFFFFFF#32 = .error .reservedBits := by decide
    simp only [StatusExplained, h]

theorem witness_RunsNeverStop : StatusExplained State.reset :=
  witness_StatusStaysExplained.1.1

theorem witness_LaterTransactionsWait :
    Host.Core.run Sys2Proof.core 1 { State.reset with pending := [HostTxn.write 0#3 5#64] ++ [HostTxn.read 0#3] } =
      .next { State.reset with a := 5#64, pending := [HostTxn.read 0#3] } := rfl

theorem witness_InstancesAreIsolated :
    [State.reset, st 1 0 0 0][1]? = some (st 1 0 0 0) ∧ step (st 1 0 0 0) = .next (st 1 0 0 0) ∧
    (0 : Nat) ≠ 1 := ⟨rfl, rfl, by decide⟩

/-- A command that writes neither `R` nor `W`, and one that writes `W` alone. -/
theorem witness_WritesFollowTable :
    (exec (.nop (eC 0#5)) (st 1 2 3 4) = .next (st 1 2 3 4) ∧
      (Instr.nop (eC 0#5)).writesR = false ∧ (Instr.nop (eC 0#5)).writesW = false) ∧
    (exec (.wneg (eC 0#5)) (st 1 2 3 4) = .next (st 1 2 3 (-4)) ∧
      (Instr.wneg (eC 0#5)).writesR = false) ∧
    (exec (.sgn (eC 0#5)) (st 1 2 3 4) = .next { st 1 2 3 4 with r := 1#64 } ∧
      (Instr.sgn (eC 0#5)).writesW = false) := by
  refine ⟨⟨rfl, rfl, rfl⟩, ⟨rfl, rfl⟩, ⟨rfl, rfl⟩⟩

theorem witness_FaultWritesStatusOnly :
    execute { st 1 0 0 0 with cmd := 0x00010450#32 } =
      .next { st 1 0 0 0 with cmd := 0x00010450#32, status := 0x31#32 } ∧
    statusErr 0x31#32 = true := ⟨rfl, by decide⟩

theorem witness_FaultsFollowCauseTable :
    exec (.nop (eC 0#5)) State.reset = .next State.reset := rfl

/-- Two states that agree on what MULP10 reads and on nothing else of `B`. -/
theorem witness_ResultDependsOnReads :
    agreeOnReads (.mulp10 (eC 0#5)) (st 5 1 0 0) (st 5 1311768464867721217 7 9) ∧
    (outcome (.mulp10 (eC 0#5)) (st 5 1 0 0)).isSome = true ∧
    (Instr.mulp10 (eC 0#5)).writesR = true ∧ (Instr.isqrt (eC 0#5)).writesW = true := by
  refine ⟨⟨?_, ?_⟩, ?_, rfl, rfl⟩ <;> decide

/-- ADD uses `ov` alone: any two scales and rounding modes will do. -/
theorem witness_UnusedFieldsIgnored :
    (Instr.add (eC 0#5)).usesScale = false ∧ (Instr.add (eC 0#5)).usesRm = false ∧
    (eC 0#5).ov = (eU 18#5).ov := ⟨rfl, rfl, rfl⟩

theorem witness_RoundqIsReference : (-2 : ℤ) ≠ 0 := by decide

theorem witness_IncrementMovesAway :
    (-3 : ℤ) ≠ 0 ∧ inc .up (Int.tdiv 1 (-3)) (Int.tmod 1 (-3)) (-3) = .ok (-1) := by decide

/-- Below, above and at the midpoint, there with an odd and with an even truncated quotient. -/
theorem witness_HalfModesAtMidpoint :
    (10 : ℤ) ≠ 0 ∧ 2 * |Int.tmod 24 10| < |(10 : ℤ)| ∧ |(10 : ℤ)| < 2 * |Int.tmod 26 10| ∧
    (2 * |Int.tmod 15 10| = |(10 : ℤ)| ∧ Odd (Int.tdiv 15 10)) ∧
    (2 * |Int.tmod 25 10| = |(10 : ℤ)| ∧ Even (Int.tdiv 25 10) ∧ roundq .halfEven 25 10 = .ok 2) := by
  decide

/-- `I64MIN` and `I64MAX` fit; the numbers beside them do not. -/
theorem witness_PolicyWrapsOrRaises :
    (-2 ^ 63 ≤ i64Min ∧ i64Max ≤ 2 ^ 63 - 1) ∧ i64Min - 1 < -2 ^ 63 ∧ 2 ^ 63 - 1 < i64Max + 1 := by
  decide

/-- At the edges of the precondition (`|r| = |d|`, `|r| = |d| - 1`), at an odd midpoint, and with a
remainder of 1. -/
theorem witness_RincSelectsIncrement :
    (s64 (st 0 5 0 0).c = 0 ∧ |s64 (st 0 (-10) 10 0).c| ≤ |s64 (st 0 (-10) 10 0).b|) ∧
    (s64 (st 0 9 10 0).c ≠ 0 ∧ |s64 (st 0 9 10 0).b| < |s64 (st 0 9 10 0).c| ∧
      RoundsTo .up ((s64 (st 0 9 10 0).b : ℝ) / s64 (st 0 9 10 0).c) 1 ∧
      ¬(RoundingMode.up = .halfEven ∧ 2 * |s64 (st 0 9 10 0).b| = |s64 (st 0 9 10 0).c| ∧
        Odd (s64 (st 0 9 10 0).a))) ∧
    (2 * |s64 (st 3 5 10 0).b| = |s64 (st 3 5 10 0).c| ∧ Odd (s64 (st 3 5 10 0).a)) ∧
    s64 (st 0 1 10 0).b ≠ 0 := by
  have hb : s64 (st 0 9 10 0).b = 9 := by decide
  have hc : s64 (st 0 9 10 0).c = 10 := by decide
  refine ⟨by decide, ⟨by decide, by decide, ?_, by simp⟩, ⟨by decide, by decide⟩, by decide⟩
  rw [hb, hc]
  norm_num [RoundsTo, abs_of_pos]

/-- Digit 10 and digit 9; the fraction 0.9 exactly, and the midpoint with an odd truncated value. -/
theorem witness_RincdSelectsIncrement :
    9 < (st 0 10 0 0).b.toNat % 16 ∧ (st 0 9 0 0).b.toNat % 16 = 9 ∧
    (((9 : Nat) : ℝ) / 10 ≤ 9 / 10 ∧ (9 / 10 : ℝ) < (((9 : Nat) : ℝ) + 1) / 10 ∧
      ((9 / 10 : ℝ) = ((9 : Nat) : ℝ) / 10 ↔ (st 0 9 0 0).b.toNat / 16 % 2 = 0) ∧
      (st 0 9 0 0).b.toNat / 32 % 2 ≠ 1 ∧ RoundsTo .up (9 / 10) 1) ∧
    (((st 1 5 0 0).b.toNat % 16 = 5 ∧ Odd (s64 (st 1 5 0 0).a)) ∧
      ((5 : Nat) : ℝ) / 10 ≤ 1 / 2 ∧ (1 / 2 : ℝ) < (((5 : Nat) : ℝ) + 1) / 10 ∧
      ((1 / 2 : ℝ) = ((5 : Nat) : ℝ) / 10 ↔ (st 1 5 0 0).b.toNat / 16 % 2 = 0)) := by
  have h9 : (st 0 9 0 0).b.toNat / 16 % 2 = 0 := by decide
  have h5 : (st 1 5 0 0).b.toNat / 16 % 2 = 0 := by decide
  refine ⟨by decide, by decide, ⟨by norm_num, by norm_num, ?_, by decide, ?_⟩,
    ⟨by decide, by decide⟩, by norm_num, by norm_num, ?_⟩
  · norm_num [h9]
  · norm_num [RoundsTo, abs_of_pos]
  · norm_num [h5]

theorem witness_DigitIncrementAgrees : (-9 : ℤ).natAbs < 10 ^ (0 + 1) := by decide

theorem witness_ScaleConstants :
    (eC 18#5).wf = true ∧ (9 : ℤ) * 10 ^ (18#5 : BitVec 5).toNat ≤ i64Max ∧
    i64Max < (9 + 1) * 10 ^ (18#5 : BitVec 5).toNat ∧
    i64Min ≤ (-9 : ℤ) * 10 ^ (18#5 : BitVec 5).toNat ∧
    (-9 - 1 : ℤ) * 10 ^ (18#5 : BitVec 5).toNat < i64Min := by decide

theorem witness_SfdivSfmodTruncate :
    s64 (st (-123456) 0 0 0).a = 10 ^ (4#5 : BitVec 5).toNat * (-12) + (-3456) ∧
    |(-3456 : ℤ)| < 10 ^ (4#5 : BitVec 5).toNat ∧ ¬ 0 < s64 (st (-123456) 0 0 0).a ∧ (-3456 : ℤ) ≤ 0 := by
  decide

/-- A zero divisor; and the corner `I128MIN / -1`. -/
theorem witness_DivwTruncates :
    (st 0 0 0 5).b = 0#64 ∧ (st 0 (-1) 0 (-2 ^ 127)).b ≠ 0#64 ∧
    s128 (st 0 (-1) 0 (-2 ^ 127)).wide = s64 (st 0 (-1) 0 (-2 ^ 127)).b * 2 ^ 127 + 0 ∧
    |(0 : ℤ)| < |s64 (st 0 (-1) 0 (-2 ^ 127)).b| ∧ ¬ 0 < s128 (st 0 (-1) 0 (-2 ^ 127)).wide := by
  decide

theorem witness_EveryModeRoundsOnce :
    RoundingMode.up ≠ .unnecessary ∧ (eU 0#5).rm = .unnecessary := by decide

theorem witness_SplitFormsAgree : (-1 : ℤ) ≠ 0 ∧ (0 : ℤ) < 1 := by decide

/-- A radicand of -1, of 0 and of `I128MAX`. -/
theorem witness_IsqrtRootRemainder :
    s128 (st 0 0 0 (-1)).wide < 0 ∧
    (((0 : ℕ) : ℤ) * (0 : ℕ) ≤ s128 (st 0 0 0 0).wide ∧
      s128 (st 0 0 0 0).wide < (((0 : ℕ) : ℤ) + 1) * ((0 : ℕ) + 1)) ∧
    (((13043817825332782212 : ℕ) : ℤ) * (13043817825332782212 : ℕ) ≤ s128 (st 0 0 0 (2 ^ 127 - 1)).wide ∧
      s128 (st 0 0 0 (2 ^ 127 - 1)).wide <
        (((13043817825332782212 : ℕ) : ℤ) + 1) * ((13043817825332782212 : ℕ) + 1)) := by
  decide

/-- ADD at `I64MAX + 0` and at `I64MAX + 1`; SUB, MULL, ABS and NEG at `I64MIN` and beside it. -/
theorem witness_ExactCommandsMeetPolicy :
    (fits64 (s64 (st 9223372036854775807 0 0 0).a + s64 (st 9223372036854775807 0 0 0).b) = true ∧
      fits64 (s64 (st 9223372036854775807 1 0 0).a + s64 (st 9223372036854775807 1 0 0).b) = false) ∧
    (fits64 (s64 (st (-1) (-9223372036854775808) 0 0).a - s64 (st (-1) (-9223372036854775808) 0 0).b) = true ∧
      fits64 (s64 (st 0 (-9223372036854775808) 0 0).a - s64 (st 0 (-9223372036854775808) 0 0).b) = false) ∧
    (fits64 (s64 (st (-9223372036854775808) 1 0 0).a * s64 (st (-9223372036854775808) 1 0 0).b) = true ∧
      fits64 (s64 (st (-9223372036854775808) (-1) 0 0).a * s64 (st (-9223372036854775808) (-1) 0 0).b) = false) ∧
    (fits64 |s64 (st (-9223372036854775807) 0 0 0).a| = true ∧
      fits64 |s64 (st (-9223372036854775808) 0 0 0).a| = false) ∧
    (fits64 (-(s64 (st (-9223372036854775807) 0 0 0).a)) = true ∧
      fits64 (-(s64 (st (-9223372036854775808) 0 0 0).a)) = false) ∧
    (eC 0#5).ov = .checked := by
  decide

/-- Operands of the two 64-bit forms as real numbers. -/
theorem cast_a (a b c w : Int) (h : fits64 a = true) : ((s64 (st a b c w).a : ℤ) : ℝ) = (a : ℝ) := by
  rw [show (st a b c w).a = wrap64 a from rfl, s64_wrap64 h]

theorem cast_b (a b c w : Int) (h : fits64 b = true) : ((s64 (st a b c w).b : ℤ) : ℝ) = (b : ℝ) := by
  rw [show (st a b c w).b = wrap64 b from rfl, s64_wrap64 h]

/-- MUL: `I64MIN · 1` and `I64MIN · -1` at scale 0, `0.5 · 0.5` at scale 1. -/
theorem witness_MulMeetsReference :
    RoundedWitness (eC 0#5) (eC 0#5) (eU 1#5)
      (((s64 (st (-9223372036854775808) 1 0 0).a : ℝ) / realFactor (eC 0#5)) *
        ((s64 (st (-9223372036854775808) 1 0 0).b : ℝ) / realFactor (eC 0#5)) * realFactor (eC 0#5))
      (((s64 (st (-9223372036854775808) (-1) 0 0).a : ℝ) / realFactor (eC 0#5)) *
        ((s64 (st (-9223372036854775808) (-1) 0 0).b : ℝ) / realFactor (eC 0#5)) * realFactor (eC 0#5))
      (((s64 (st 5 5 0 0).a : ℝ) / realFactor (eU 1#5)) *
        ((s64 (st 5 5 0 0).b : ℝ) / realFactor (eU 1#5)) * realFactor (eU 1#5))
      (-9223372036854775808) 9223372036854775808 := by
  apply roundedWitness_intro <;> first | rfl | decide | skip
  all_goals
    simp only [cast_a _ _ _ _ (show fits64 (-9223372036854775808) = true by decide),
      cast_b _ _ _ _ (show fits64 1 = true by decide), cast_b _ _ _ _ (show fits64 (-1) = true by decide),
      cast_a _ _ _ _ (show fits64 5 = true by decide), cast_b _ _ _ _ (show fits64 5 = true by decide)]
    norm_num [realFactor, eC, eU]

/-- SQR: a fitting square, one that does not fit, and `0.5²` at scale 1. -/
theorem witness_SqrMeetsReference :
    RoundedWitness (eC 0#5) (eC 0#5) (eU 1#5)
      (((s64 (st 3037000499 0 0 0).a : ℝ) / realFactor (eC 0#5)) ^ 2 * realFactor (eC 0#5))
      (((s64 (st 3037000500 0 0 0).a : ℝ) / realFactor (eC 0#5)) ^ 2 * realFactor (eC 0#5))
      (((s64 (st 5 0 0 0).a : ℝ) / realFactor (eU 1#5)) ^ 2 * realFactor (eU 1#5))
      9223372030926249001 9223372037000250000 ∧
    exec (.mul (eC 0#5)) { st 3 0 0 0 with b := (st 3 0 0 0).a } =
      .next { st 3 3 0 0 with r := 9#64 } := by
  refine ⟨?_, rfl⟩
  apply roundedWitness_intro <;> first | rfl | decide | skip
  all_goals
    simp only [cast_a _ _ _ _ (show fits64 3037000499 = true by decide),
      cast_a _ _ _ _ (show fits64 3037000500 = true by decide), cast_a _ _ _ _ (show fits64 5 = true by decide)]
    norm_num [realFactor, eC, eU]

/-- AVG: the mean of `I64MIN` with itself, and of 2 and 3. -/
theorem witness_AvgMeetsReference :
    RoundsTo .up (((s64 (st (-9223372036854775808) (-9223372036854775808) 0 0).a : ℝ) +
      s64 (st (-9223372036854775808) (-9223372036854775808) 0 0).b) / 2) (-9223372036854775808) ∧
    ∀ x : ℤ, ((s64 (st 2 3 0 0).a : ℝ) + s64 (st 2 3 0 0).b) / 2 ≠ x := by
  rw [cast_a _ _ _ _ (by decide), cast_b _ _ _ _ (by decide), cast_a _ _ _ _ (by decide),
    cast_b _ _ _ _ (by decide)]
  refine ⟨rounds_int _ (by norm_num), fun x => ?_⟩
  have := five_halves_ne x
  norm_num at this ⊢
  exact this

/-- MULP10 and DIVP10: zero at the ends of the `i32` range, `10·10^18`, and `25/10`. -/
theorem witness_PowerOfTenMeetsReference :
    RoundedWitness (eC 0#5) (eC 0#5) (eU 0#5)
      ((s64 (st 0 2147483647 0 0).a : ℝ) * (10 : ℝ) ^ n32 (st 0 2147483647 0 0))
      ((s64 (st 10 18 0 0).a : ℝ) * (10 : ℝ) ^ n32 (st 10 18 0 0))
      ((s64 (st 25 (-1) 0 0).a : ℝ) * (10 : ℝ) ^ n32 (st 25 (-1) 0 0)) 0 10000000000000000000 ∧
    RoundedWitness (eC 0#5) (eC 0#5) (eU 0#5)
      ((s64 (st 0 (-2147483648) 0 0).a : ℝ) / (10 : ℝ) ^ n32 (st 0 (-2147483648) 0 0))
      ((s64 (st 10 (-18) 0 0).a : ℝ) / (10 : ℝ) ^ n32 (st 10 (-18) 0 0))
      ((s64 (st 25 1 0 0).a : ℝ) / (10 : ℝ) ^ n32 (st 25 1 0 0)) 0 10000000000000000000 := by
  have e1 : n32 (st 10 18 0 0) = 18 := by decide
  have e2 : n32 (st 25 (-1) 0 0) = -1 := by decide
  have e3 : n32 (st 10 (-18) 0 0) = -18 := by decide
  have e4 : n32 (st 25 1 0 0) = 1 := by decide
  constructor <;> apply roundedWitness_intro <;> first | rfl | decide | skip
  all_goals
    simp only [e1, e2, e3, e4, cast_a _ _ _ _ (show fits64 0 = true by decide),
      cast_a _ _ _ _ (show fits64 10 = true by decide), cast_a _ _ _ _ (show fits64 25 = true by decide)]
    norm_num [zpow_neg]

/-- DIV: a zero divisor; `I64MIN / 1` and `I64MIN / -1` and `5 / 2` at scale 0. -/
theorem witness_DivMeetsReference :
    (st 5 0 0 0).b = 0#64 ∧
    ((st (-9223372036854775808) 1 0 0).b ≠ 0#64 ∧ (st (-9223372036854775808) (-1) 0 0).b ≠ 0#64 ∧
      (st 5 2 0 0).b ≠ 0#64) ∧
    RoundedWitness (eC 0#5) (eC 0#5) (eU 0#5)
      (((s64 (st (-9223372036854775808) 1 0 0).a : ℝ) / realFactor (eC 0#5)) /
        ((s64 (st (-9223372036854775808) 1 0 0).b : ℝ) / realFactor (eC 0#5)) * realFactor (eC 0#5))
      (((s64 (st (-9223372036854775808) (-1) 0 0).a : ℝ) / realFactor (eC 0#5)) /
        ((s64 (st (-9223372036854775808) (-1) 0 0).b : ℝ) / realFactor (eC 0#5)) * realFactor (eC 0#5))
      (((s64 (st 5 2 0 0).a : ℝ) / realFactor (eU 0#5)) /
        ((s64 (st 5 2 0 0).b : ℝ) / realFactor (eU 0#5)) * realFactor (eU 0#5))
      (-9223372036854775808) 9223372036854775808 := by
  refine ⟨by decide, by decide, ?_⟩
  apply roundedWitness_intro <;> first | rfl | decide | skip
  all_goals
    simp only [cast_a _ _ _ _ (show fits64 (-9223372036854775808) = true by decide),
      cast_b _ _ _ _ (show fits64 1 = true by decide), cast_b _ _ _ _ (show fits64 (-1) = true by decide),
      cast_a _ _ _ _ (show fits64 5 = true by decide), cast_b _ _ _ _ (show fits64 2 = true by decide)]
    norm_num [realFactor, eC, eU]

/-- DIVL: as DIV. -/
theorem witness_DivlMeetsReference :
    (st 5 0 0 0).b = 0#64 ∧
    ((st (-9223372036854775808) 1 0 0).b ≠ 0#64 ∧ (st (-9223372036854775808) (-1) 0 0).b ≠ 0#64 ∧
      (st 5 2 0 0).b ≠ 0#64) ∧
    RoundedWitness (eC 0#5) (eC 0#5) (eU 0#5)
      ((s64 (st (-9223372036854775808) 1 0 0).a : ℝ) / s64 (st (-9223372036854775808) 1 0 0).b)
      ((s64 (st (-9223372036854775808) (-1) 0 0).a : ℝ) / s64 (st (-9223372036854775808) (-1) 0 0).b)
      ((s64 (st 5 2 0 0).a : ℝ) / s64 (st 5 2 0 0).b)
      (-9223372036854775808) 9223372036854775808 := by
  refine ⟨by decide, by decide, ?_⟩
  apply roundedWitness_intro <;> first | rfl | decide | skip
  all_goals
    simp only [cast_a _ _ _ _ (show fits64 (-9223372036854775808) = true by decide),
      cast_b _ _ _ _ (show fits64 1 = true by decide), cast_b _ _ _ _ (show fits64 (-1) = true by decide),
      cast_a _ _ _ _ (show fits64 5 = true by decide), cast_b _ _ _ _ (show fits64 2 = true by decide)]
    norm_num

/-- INV: a zero operand; `1/0.000000001` at scale 9 fits, at scale 10 it does not; `1/4.0` at scale 1
is not exact. And DIV with the one-value as dividend answers. -/
theorem witness_InvMeetsReference :
    (st 0 0 0 0).a = 0#64 ∧ ((st 1 0 0 0).a ≠ 0#64 ∧ (st 40 0 0 0).a ≠ 0#64) ∧
    RoundedWitness (eC 9#5) (eC 10#5) (eU 1#5)
      (1 / ((s64 (st 1 0 0 0).a : ℝ) / realFactor (eC 9#5)) * realFactor (eC 9#5))
      (1 / ((s64 (st 1 0 0 0).a : ℝ) / realFactor (eC 10#5)) * realFactor (eC 10#5))
      (1 / ((s64 (st 40 0 0 0).a : ℝ) / realFactor (eU 1#5)) * realFactor (eU 1#5))
      1000000000000000000 100000000000000000000 ∧
    (eC 18#5).wf = true ∧
    (outcome (.div (eC 18#5)) { st 0 0 0 0 with a := wrap64 (10 ^ 18), b := 1#64 }).isSome = true := by
  refine ⟨by decide, by decide, ?_, by decide, by decide⟩
  apply roundedWitness_intro <;> first | rfl | decide | skip
  all_goals
    simp only [cast_a _ _ _ _ (show fits64 1 = true by decide), cast_a _ _ _ _ (show fits64 40 = true by decide)]
    norm_num [realFactor, eC, eU]

/-- SQRT: -1; the root of 0 and of the one-value at scale 18; the root of 2 at scale 0. -/
theorem witness_SqrtMeetsReference :
    ((eC 18#5).wf = true ∧ s64 (st (-1) 0 0 0).a < 0 ∧ 0 ≤ s64 (st 0 0 0 0).a) ∧
    RoundsTo .up (Real.sqrt ((s64 (st 0 0 0 0).a : ℝ) * realFactor (eC 18#5))) 0 ∧
    RoundsTo .up (Real.sqrt ((s64 (st 1000000000000000000 0 0 0).a : ℝ) * realFactor (eC 18#5)))
      1000000000000000000 ∧
    ∀ x : ℤ, Real.sqrt ((s64 (st 2 0 0 0).a : ℝ) * realFactor (eU 0#5)) ≠ x := by
  refine ⟨by decide, rounds_int _ ?_, rounds_int _ ?_, fun x => ?_⟩
  · rw [cast_a _ _ _ _ (by decide)]
    simp
  · rw [cast_a _ _ _ _ (by decide)]
    rw [show ((1000000000000000000 : ℤ) : ℝ) * realFactor (eC 18#5) = (1000000000000000000 : ℝ) ^ 2 by
      norm_num [realFactor, eC]]
    rw [Real.sqrt_sq (by norm_num)]
    norm_num
  · rw [cast_a _ _ _ _ (by decide)]
    have h := irrational_sqrt_two.ne_int x
    simpa [realFactor, eU] using h

/-- POW: the chain of V393 (`1.5³` at scale 4), for the exponents 3 and -3. -/
theorem powChain_V393 : PowChain ⟨4#5, .halfUp, .unchecked⟩ 15000 3 33750 false := by
  have h2 : PowChain ⟨4#5, .halfUp, .unchecked⟩ 15000 2 22500 false :=
    PowChain.square .start 22500 (rounds_int _ (by norm_num [realFactor])) (.inl rfl)
  exact PowChain.multiply (k := 1) h2 33750 (rounds_int _ (by norm_num [realFactor])) (.inl rfl)

theorem witness_PowFollowsChain :
    n32 (st 5 0 0 0) = 0 ∧
    (s64 (st 15000 3 0 0).a = 15000 ∧ n32 (st 15000 3 0 0) = 3 ∧
      PowChain ⟨4#5, .halfUp, .unchecked⟩ 15000 3 33750 false) ∧
    (n32 (st 20000 (-1) 0 0) = -1 ∧ PowChain ⟨4#5, .halfUp, .unchecked⟩ 20000 1 20000 false ∧
      RoundsTo .halfUp (realFactor ⟨4#5, .halfUp, .unchecked⟩ * realFactor ⟨4#5, .halfUp, .unchecked⟩ /
        ((20000 : ℤ) : ℝ)) 5000) := by
  refine ⟨by decide, ⟨by decide, by decide, powChain_V393⟩, by decide, .start, rounds_int _ ?_⟩
  norm_num [realFactor]

/-- POW: the square of 0.5 at scale 1 is not exact, of `2^32` at scale 0 does not fit; the multiply of
0.25 by 0.5 at scale 2 is not exact, of `2^62` by `2^31` does not fit; a positive power of 0; and an invert that is not exact or does not fit. -/
theorem witness_PowFaultsAtFirstStep :
    ((n32 (st 5 2 0 0)).natAbs / 2 ^ (0 + 1) = 1 ∧ PowChain (eU 1#5) 5 1 5 false ∧
      ∀ x : ℤ, ((5 : ℤ) : ℝ) * (5 : ℤ) / realFactor (eU 1#5) ≠ x) ∧
    ((n32 (st 4294967296 2 0 0)).natAbs / 2 ^ (0 + 1) = 1 ∧ PowChain (eC 0#5) 4294967296 1 4294967296 false ∧
      RoundsTo .up (((4294967296 : ℤ) : ℝ) * (4294967296 : ℤ) / realFactor (eC 0#5)) 18446744073709551616 ∧
      fits64 18446744073709551616 = false) ∧
    ((n32 (st 50 3 0 0)).natAbs / 2 ^ 0 = 2 * 1 + 1 ∧ PowChain (eU 2#5) 50 (2 * 1) 25 false ∧
      ∀ x : ℤ, ((25 : ℤ) : ℝ) * (50 : ℤ) / realFactor (eU 2#5) ≠ x) ∧
    (n32 (st 2147483648 3 0 0) = 3 ∧ PowChain (eC 0#5) 2147483648 (2 * 1) 4611686018427387904 false ∧
      RoundsTo .up (((4611686018427387904 : ℤ) : ℝ) * (2147483648 : ℤ) / realFactor (eC 0#5))
        9903520314283042199192993792 ∧
      fits64 9903520314283042199192993792 = false) ∧
    (n32 (st 0 (-1) 0 0) < 0 ∧ PowChain (eC 4#5) 0 (n32 (st 0 (-1) 0 0)).natAbs 0 false) ∧
    (PowChain (eU 1#5) 40 1 40 false ∧
      ∀ x : ℤ, realFactor (eU 1#5) * realFactor (eU 1#5) / ((40 : ℤ) : ℝ) ≠ x) ∧
    (PowChain (eC 10#5) 1 1 1 false ∧
      RoundsTo .up (realFactor (eC 10#5) * realFactor (eC 10#5) / ((1 : ℤ) : ℝ)) 100000000000000000000 ∧
      fits64 100000000000000000000 = false) := by
  have c1 : PowChain (eU 2#5) 50 (2 * 1) 25 false :=
    PowChain.square .start 25 (rounds_int _ (by norm_num [realFactor, eU])) (.inr (by decide))
  have c2 : PowChain (eC 0#5) 2147483648 (2 * 1) 4611686018427387904 false :=
    PowChain.square .start 4611686018427387904 (rounds_int _ (by norm_num [realFactor, eC]))
      (.inr (by decide))
  have five : ∀ q : ℝ, q = 5 / 2 → ∀ x : ℤ, q ≠ x := fun q h x => h ▸ five_halves_ne x
  refine ⟨⟨by decide, .start, five _ (by norm_num [realFactor, eU])⟩,
    ⟨by decide, .start, rounds_int _ (by norm_num [realFactor, eC]), by decide⟩,
    ⟨by decide, c1, fun x => by
      rw [show ((25 : ℤ) : ℝ) * (50 : ℤ) / realFactor (eU 2#5) = 25 / 2 by norm_num [realFactor, eU]]
      exact twentyfive_halves_ne x⟩,
    ⟨by decide, c2, rounds_int _ (by norm_num [realFactor, eC]), by decide⟩,
    ⟨by decide, .start⟩,
    ⟨.start, five _ (by norm_num [realFactor, eU])⟩,
    ⟨.start, rounds_int _ (by norm_num [realFactor, eC]), by decide⟩⟩

/-- SHL and SHR: `-1·2^63` fits, `1·2^63` does not, `5/2` is not exact; a count of 0 and of `2^31 - 1`
for the arithmetic shift. -/
theorem witness_ShiftsMeetReference :
    RoundedWitness (eC 0#5) (eC 0#5) (eU 0#5)
      ((s64 (st (-1) 63 0 0).a : ℝ) * (2 : ℝ) ^ n32 (st (-1) 63 0 0))
      ((s64 (st 1 63 0 0).a : ℝ) * (2 : ℝ) ^ n32 (st 1 63 0 0))
      ((s64 (st 5 (-1) 0 0).a : ℝ) * (2 : ℝ) ^ n32 (st 5 (-1) 0 0))
      (-9223372036854775808) 9223372036854775808 ∧
    RoundedWitness (eC 0#5) (eC 0#5) (eU 0#5)
      ((s64 (st (-1) (-63) 0 0).a : ℝ) / (2 : ℝ) ^ n32 (st (-1) (-63) 0 0))
      ((s64 (st 1 (-63) 0 0).a : ℝ) / (2 : ℝ) ^ n32 (st 1 (-63) 0 0))
      ((s64 (st 5 1 0 0).a : ℝ) / (2 : ℝ) ^ n32 (st 5 1 0 0))
      (-9223372036854775808) 9223372036854775808 ∧
    0 ≤ n32 (st 1 0 0 0) ∧ 0 ≤ n32 (st 1 2147483647 0 0) := by
  have e1 : n32 (st (-1) 63 0 0) = 63 := by decide
  have e2 : n32 (st 1 63 0 0) = 63 := by decide
  have e3 : n32 (st 5 (-1) 0 0) = -1 := by decide
  have e4 : n32 (st (-1) (-63) 0 0) = -63 := by decide
  have e5 : n32 (st 1 (-63) 0 0) = -63 := by decide
  have e6 : n32 (st 5 1 0 0) = 1 := by decide
  refine ⟨?_, ?_, by decide, by decide⟩ <;> apply roundedWitness_intro <;> first | rfl | decide | skip
  all_goals
    simp only [e1, e2, e3, e4, e5, e6, cast_a _ _ _ _ (show fits64 (-1) = true by decide),
      cast_a _ _ _ _ (show fits64 1 = true by decide), cast_a _ _ _ _ (show fits64 5 = true by decide)]
    norm_num [zpow_neg]

/-- FROML at scale 4: `MAXI[4]` fits and the next integer does not. -/
theorem witness_FromlBounds :
    (eC 4#5).wf = true ∧
    fits64 (s64 (st 922337203685477 0 0 0).a * 10 ^ (4#5 : BitVec 5).toNat) = true ∧
    fits64 (s64 (st 922337203685478 0 0 0).a * 10 ^ (4#5 : BitVec 5).toNat) = false := by decide

/-- TOL: `I64MIN` at scale 0, and 2.5 at scale 1. -/
theorem witness_TolMeetsReference :
    RoundsTo .up ((s64 (st (-9223372036854775808) 0 0 0).a : ℝ) / realFactor (eC 0#5))
      (-9223372036854775808) ∧
    ∀ x : ℤ, (s64 (st 25 0 0 0).a : ℝ) / realFactor (eU 1#5) ≠ x := by
  rw [cast_a _ _ _ _ (by decide), cast_a _ _ _ _ (by decide)]
  refine ⟨rounds_int _ (by norm_num [realFactor, eC]), fun x => ?_⟩
  have h : ((25 : ℤ) : ℝ) / realFactor (eU 1#5) = 5 / 2 := by norm_num [realFactor, eU]
  rw [h]
  exact five_halves_ne x

/-- RESCALE: 9 to scale 18 fits, 10 does not; 2.5 at scale 1 to scale 0 is not exact. -/
theorem witness_RescaleMeetsReference :
    RoundedWitness (eC 18#5) (eC 18#5) (eU 0#5)
      ((s64 (st 9 0 0 0).a : ℝ) / (10 : ℝ) ^ n32 (st 9 0 0 0) * realFactor (eC 18#5))
      ((s64 (st 10 0 0 0).a : ℝ) / (10 : ℝ) ^ n32 (st 10 0 0 0) * realFactor (eC 18#5))
      ((s64 (st 25 1 0 0).a : ℝ) / (10 : ℝ) ^ n32 (st 25 1 0 0) * realFactor (eU 0#5))
      9000000000000000000 10000000000000000000 := by
  have e1 : n32 (st 9 0 0 0) = 0 := by decide
  have e2 : n32 (st 10 0 0 0) = 0 := by decide
  have e3 : n32 (st 25 1 0 0) = 1 := by decide
  apply roundedWitness_intro <;> first | rfl | decide | skip
  all_goals
    simp only [e1, e2, e3, cast_a _ _ _ _ (show fits64 9 = true by decide),
      cast_a _ _ _ _ (show fits64 10 = true by decide), cast_a _ _ _ _ (show fits64 25 = true by decide)]
    norm_num [realFactor, eC, eU]

theorem witness_DivideUndoesMultiply :
    (st 123450 20000 0 0).b ≠ 0#64 ∧
    s64 (st 123450 20000 0 0).a * s64 (st 123450 20000 0 0).b = 246900 * 10 ^ (4#5 : BitVec 5).toNat ∧
    fits64 246900 = true := by decide

end Sys2Proof.Tests
end

section
/-! SUPPORT. What a command does to the state, as a value apart from the state it is done to
(spec/10_state.md R13, R14, R16, R22; spec/60_exceptions.md R141). -/

namespace Sys2Proof.Machine

/-- How a command ends: with a fault, or with what it writes to `R` and to `W` (`none` where its row of
R16 does not list the register) and the flag `V`. -/
inductive Effect where
  | fault (c : Cause)
  | done (r : Option Word) (w : Option Wide) (v : Bool)

/-- The word an effect leaves in `STATUS` (R14, R141). -/
def Effect.status : Effect → Word32
  | .fault c => statusFault c
  | .done _ _ v => statusOk v

/-- The state with the effect carried out. -/
def State.apply (s : State) : Effect → State
  | .fault c => s.raise c
  | .done r w v =>
    { s with
      r := r.getD s.r
      wl := (w.map (·.extractLsb' 0 64)).getD s.wl
      wh := (w.map (·.extractLsb' 64 64)).getD s.wh
      status := statusOk v }

/-- The effect writes the result registers of a row of R16, or is a fault: `wR` and `wW` say whether
the row lists `R` and `W`. -/
def Effect.FitsRow (wR wW : Bool) : Effect → Prop
  | .fault _ => True
  | .done r w _ => r.isSome = wR ∧ w.isSome = wW

section
variable (s t : State) (u : Effect)

@[simp] theorem State.apply_status : (s.apply u).status = u.status := by
  cases u <;> rfl

theorem State.apply_frame :
    s.apply u = { s with
      wl := (s.apply u).wl, wh := (s.apply u).wh, r := (s.apply u).r, status := (s.apply u).status } := by
  cases u <;> rfl

end

theorem statusErr_statusFault (c : Cause) : statusErr (statusFault c) = true := by
  cases c <;> decide

section
variable {wR wW : Bool} {u : Effect}

theorem Effect.FitsRow.apply_r_unchanged (h : u.FitsRow false wW) (s : State) :
    (s.apply u).r = s.r := by
  cases u with
  | fault c => rfl
  | done r w v =>
    obtain rfl : r = none := by simpa using h.1
    rfl

theorem Effect.FitsRow.apply_w_unchanged (h : u.FitsRow wR false) (s : State) :
    (s.apply u).wl = s.wl ∧ (s.apply u).wh = s.wh := by
  cases u with
  | fault c => exact ⟨rfl, rfl⟩
  | done r w v =>
    obtain rfl : w = none := by simpa using h.2
    exact ⟨rfl, rfl⟩

/-- Without a fault, what is written to `R` does not depend on the state before. -/
theorem Effect.FitsRow.apply_r_eq (h : u.FitsRow true wW) (ok : statusErr u.status = false)
    (s t : State) : (s.apply u).r = (t.apply u).r := by
  cases u with
  | fault c => simp [Effect.status, statusErr_statusFault] at ok
  | done r w v =>
    obtain ⟨x, rfl⟩ := Option.isSome_iff_exists.mp h.1
    rfl

/-- Without a fault, what is written to `W` does not depend on the state before. -/
theorem Effect.FitsRow.apply_w_eq (h : u.FitsRow wR true) (ok : statusErr u.status = false)
    (s t : State) : (s.apply u).wl = (t.apply u).wl ∧ (s.apply u).wh = (t.apply u).wh := by
  cases u with
  | fault c => simp [Effect.status, statusErr_statusFault] at ok
  | done r w v =>
    obtain ⟨x, rfl⟩ := Option.isSome_iff_exists.mp h.2
    exact ⟨rfl, rfl⟩

end

/-! ### Two runs with one effect -/

/-- The outcomes `o` from `s` and `p` from `t` carry out ONE effect, which fits the row. -/
def Alike (wR wW : Bool) (s t : State) (o p : Host.Outcome State Fault Refusal) : Prop :=
  ∃ u : Effect, u.FitsRow wR wW ∧ o = .next (s.apply u) ∧ p = .next (t.apply u)

section
variable {wR wW : Bool} (s t : State)

theorem alike_raise (c : Cause) : Alike wR wW s t (.next (s.raise c)) (.next (t.raise c)) :=
  ⟨.fault c, trivial, rfl, rfl⟩

theorem alike_succeed (x : Word) (v : Bool) :
    Alike true false s t (.next (s.succeed x v)) (.next (t.succeed x v)) :=
  ⟨.done (some x) none v, ⟨rfl, rfl⟩, rfl, rfl⟩

theorem alike_succeedWide (w : Wide) :
    Alike false true s t (.next (s.succeedWide w)) (.next (t.succeedWide w)) :=
  ⟨.done none (some w) _, ⟨rfl, rfl⟩, rfl, rfl⟩

/-- A result in `R` beside one in `W`, the ending of DIVW and ISQRT. -/
theorem alike_wideAndResult (x : Word) (w : Wide) (v : Bool) :
    Alike true true s t (.next { s.withWide w with r := x, status := statusOk v })
      (.next { t.withWide w with r := x, status := statusOk v }) :=
  ⟨.done (some x) (some w) v, ⟨rfl, rfl⟩, rfl, rfl⟩

theorem alike_finish (res : Except Cause (Word × Bool)) :
    Alike true false s t (s.finish res) (t.finish res) := by
  cases res with
  | ok p => exact alike_succeed s t p.1 p.2
  | error c => exact alike_raise s t c

theorem alike_finishFit (res : Except Cause Int) :
    Alike true false s t (s.finishFit res) (t.finishFit res) := by
  cases res with
  | ok x => exact alike_succeed s t (wrap64 x) false
  | error c => exact alike_raise s t c

/-- An operand test before a command's ending: where it passes on both sides the two faults are one
effect (R147). -/
theorem alike_guard {o p : Host.Outcome State Fault Refusal} (test : Prop) [Decidable test] (c : Cause)
    (h : Alike wR wW s t o p) :
    Alike wR wW s t (if test then .next (s.raise c) else o) (if test then .next (t.raise c) else p) := by
  split
  · exact alike_raise s t c
  · exact h

end

/-! ### Operands that agree -/

section
variable {s t : State}

theorem opA_congr (h : s.a = t.a) : s.opA = t.opA := congrArg s64 h

theorem opB_congr (h : s.b = t.b) : s.opB = t.opB := congrArg s64 h

theorem opC_congr (h : s.c = t.c) : s.opC = t.opC := congrArg s64 h

theorem opN_congr (h : s.b.extractLsb' 0 32 = t.b.extractLsb' 0 32) : s.opN = t.opN :=
  congrArg s32 h

theorem opW_congr (hl : s.wl = t.wl) (hh : s.wh = t.wh) : s.opW = t.opW := by
  simp only [State.opW, State.wide, hl, hh]

/-- RINCD's digit and its two flags lie in `B[5:0]` (spec/41_rounding_and_overflow.md R79). -/
theorem rincdOperands_congr (h : s.b.extractLsb' 0 6 = t.b.extractLsb' 0 6) :
    s.opDigit = t.opDigit ∧ s.opTrailing = t.opTrailing ∧ s.opNegative = t.opNegative := by
  have bit (j : Nat) (hj : j < 6) : s.b.getLsbD j = t.b.getLsbD j := by
    simpa [BitVec.getLsbD_extractLsb', hj] using congrArg (·.getLsbD j) h
  refine ⟨congrArg BitVec.toNat ?_, bit 4 (by decide), bit 5 (by decide)⟩
  ext j hj
  simpa using bit j (by omega)

end

/-! ### Every command -/

/-- The effect of a command is the same from any two states that agree on what its row of R16 reads,
and it fits the row (R22). The cases go by how the commands end and by the operands they read. -/
theorem exec_alike {i : Instr} {s t : State} (h : agreeOnReads i s t) :
    Alike i.writesR i.writesW s t (exec i s) (exec i t) := by
  cases i with
  | nop e => exact ⟨.done none none false, ⟨rfl, rfl⟩, rfl, rfl⟩
  | sfget e | sfmaxi e | sfmini e => exact alike_succeed s t _ _
  | sfmul e | sfdiv e | sfmod e | sgn e =>
    simp only [exec, execSfmul, execSfdiv, execSfmod, execSgn, opA_congr h]
    exact alike_succeed s t _ _
  | cmp e =>
    obtain ⟨ha, hb⟩ := h
    simp only [exec, execCmp, opA_congr ha, opB_congr hb]
    exact alike_succeed s t _ _
  | wfits e | wisneg e | wsignum e =>
    obtain ⟨hl, hh⟩ := h
    simp only [exec, execWfits, execWisneg, execWsignum, opW_congr hl hh]
    exact alike_succeed s t _ _
  | add64w e | mul64 e =>
    obtain ⟨ha, hb⟩ := h
    simp only [exec, execAdd64w, execMul64, opA_congr ha, opB_congr hb]
    exact alike_succeedWide s t _
  | wneg e =>
    obtain ⟨hl, hh⟩ := h
    simp only [exec, execWneg, opW_congr hl hh]
    exact alike_succeedWide s t _
  | divw e =>
    obtain ⟨hl, hh, hb⟩ := h
    simp only [exec, execDivw, opW_congr hl hh, opB_congr hb]
    exact alike_guard s t _ _ (alike_wideAndResult s t _ _ _)
  | isqrt e =>
    obtain ⟨hl, hh⟩ := h
    simp only [exec, execIsqrt, opW_congr hl hh]
    exact alike_guard s t _ _ (alike_wideAndResult s t _ _ _)
  | add e | sub e | mul e | mull e =>
    obtain ⟨ha, hb⟩ := h
    simp only [exec, execAdd, execSub, execMul, execMull, opA_congr ha, opB_congr hb]
    exact alike_finish s t _
  | sqr e | abs e | neg e | froml e =>
    simp only [exec, execSqr, execAbs, execNeg, execFroml, opA_congr h]
    exact alike_finish s t _
  | mulp10 e | divp10 e | shl e | shr e | rescale e =>
    obtain ⟨ha, hn⟩ := h
    simp only [exec, execMulp10, execDivp10, execShl, execShr, execRescale, opA_congr ha,
      opN_congr hn]
    exact alike_finish s t _
  | avg e =>
    obtain ⟨ha, hb⟩ := h
    simp only [exec, execAvg, opA_congr ha, opB_congr hb]
    exact alike_finishFit s t _
  | tol e =>
    simp only [exec, execTol, opA_congr h]
    exact alike_finishFit s t _
  | div e | divl e =>
    obtain ⟨ha, hb⟩ := h
    simp only [exec, execDiv, execDivl, opA_congr ha, opB_congr hb]
    exact alike_guard s t _ _ (alike_finish s t _)
  | inv e =>
    simp only [exec, execInv, opA_congr h]
    exact alike_guard s t _ _ (alike_finish s t _)
  | sqrt e =>
    simp only [exec, execSqrt, opA_congr h]
    exact alike_guard s t _ _ (alike_finishFit s t _)
  | rinc e =>
    obtain ⟨ha, hb, hc⟩ := h
    simp only [exec, execRinc, opA_congr ha, opB_congr hb, opC_congr hc]
    exact alike_guard s t _ _ (alike_finishFit s t _)
  | rincd e =>
    obtain ⟨ha, hb⟩ := h
    obtain ⟨hdigit, htrailing, hnegative⟩ := rincdOperands_congr hb
    simp only [exec, execRincd, opA_congr ha, hdigit, htrailing, hnegative]
    exact alike_guard s t _ _ (alike_finishFit s t _)
  | pow e =>
    obtain ⟨ha, hn⟩ := h
    simp only [exec, execPow, opA_congr ha, opN_congr hn]
    cases powValue e t.opA t.opN with
    | ok p => exact alike_succeed s t _ _
    | error c => exact alike_raise s t c

/-- Settles O21: by `exec_alike` both runs carry out one effect, and the clauses are what an effect
that fits the command's row changes. -/
theorem resultDependsOnReads : Obligations.ResultDependsOnReads := by
  intro i s₁ s₂ t₁ t₂ hreads h₁ h₂
  obtain ⟨u, hrow, hu₁, hu₂⟩ := exec_alike hreads
  obtain rfl : t₁ = s₁.apply u := Host.Outcome.next.inj (h₁.symm.trans hu₁)
  obtain rfl : t₂ = s₂.apply u := Host.Outcome.next.inj (h₂.symm.trans hu₂)
  refine ⟨s₁.apply_frame u, fun hR => ?_, fun hW => ?_, by simp, fun ok => ⟨fun hR => ?_, fun hW => ?_⟩⟩
  · rw [hR] at hrow
    exact hrow.apply_r_unchanged s₁
  · rw [hW] at hrow
    exact hrow.apply_w_unchanged s₁
  · rw [hR] at hrow
    exact hrow.apply_r_eq (by simpa using ok) s₁ s₂
  · rw [hW] at hrow
    exact hrow.apply_w_eq (by simpa using ok) s₁ s₂

end Sys2Proof.Machine
end

section
/-! SUPPORT. The two port transactions, register by register (spec/20_memory.md R31). -/

namespace Sys2Proof.Machine

section
variable (s : State) (data : Word)

/-- A write to the index of a register other than `CMD` launches nothing. -/
theorem hostWrite_portIndex_of_ne_cmd {p : PortReg} (h : p ≠ .cmd) :
    hostWrite (portIndex p) data s = .next (s.writeReg data p) := by
  simp [hostWrite, h]

/-- A write to the index of `CMD` stores `data[31:0]` there, then launches (R33). -/
theorem hostWrite_portIndex_cmd :
    hostWrite (portIndex .cmd) data s = execute { s with cmd := data.extractLsb' 0 32 } := rfl

@[simp] theorem hostRead_portIndex (p : PortReg) : hostRead (portIndex p) s = s.readReg p := by
  simp [hostRead]

/-- A 32-bit register keeps its value when read through the 64-bit port (spec/10_state.md R14, R15). -/
theorem toNat_hostRead_of_zeroExtend {p : PortReg} {w : Word32}
    (h : s.readReg p = w.zeroExtend 64) : (hostRead (portIndex p) s).toNat = w.toNat := by
  rw [hostRead_portIndex, h]
  exact BitVec.toNat_setWidth_of_le (by decide)

end

/-- Settles O8: the eight indices are the `portIndex` of the eight registers, and each clause is the
write or the read of that register. -/
theorem portTransactions : Obligations.PortTransactions := by
  intro s d
  have write (p : PortReg) (h : p ≠ .cmd) := hostWrite_portIndex_of_ne_cmd s d h
  have read := hostRead_portIndex s
  exact ⟨write .a (by decide), write .b (by decide), write .c (by decide), write .wl (by decide),
    write .wh (by decide), write .r (by decide), write .status (by decide),
    hostWrite_portIndex_cmd s d,
    read .a, read .b, read .c, read .wl, read .wh, read .r,
    toNat_hostRead_of_zeroExtend s (p := .status) rfl, toNat_hostRead_of_zeroExtend s (p := .cmd) rfl⟩

end Sys2Proof.Machine
end

section
/-! SUPPORT. The fields of a command word as the spec writes them, by division and by shifting, and the
opcode map as a table (spec/30_encoding.md R46, R47, R50). -/

namespace Sys2Proof

/-! ### The fields of a word, by division (R46) -/

section
variable (w : Word32)

theorem toNat_cmdOp : (cmdOp w).toNat = w.toNat % 2 ^ 8 := by
  simp [cmdOp, BitVec.extractLsb'_toNat]

theorem toNat_cmdScale : (cmdScale w).toNat = w.toNat / 2 ^ 8 % 2 ^ 5 := by
  simp [cmdScale, BitVec.extractLsb'_toNat, Nat.shiftRight_eq_div_pow]

theorem toNat_cmdRm : (cmdRm w).toNat = w.toNat / 2 ^ 13 % 2 ^ 3 := by
  simp [cmdRm, BitVec.extractLsb'_toNat, Nat.shiftRight_eq_div_pow]

theorem toNat_cmdOv : (cmdOv w).toNat = w.toNat / 2 ^ 16 % 2 := by
  simp [cmdOv, BitVec.extractLsb'_toNat, Nat.shiftRight_eq_div_pow]

/-- Bits 31:17 are the top of the word: nothing above them is cut off. -/
theorem cmdZero_eq_zero_iff : cmdZero w = 0#15 ↔ w.toNat / 2 ^ 17 = 0 := by
  have htop : w.toNat < 2 ^ 32 := w.isLt
  rw [← BitVec.toNat_inj, cmdZero, BitVec.extractLsb'_toNat, Nat.shiftRight_eq_div_pow,
    BitVec.toNat_zero]
  omega

end

/-! ### The triple and the word (R46, R48, R49) -/

@[simp] theorem cmdEngine_assembleWord (op : BitVec 8) (e : Engine) :
    cmdEngine (assembleWord op e) = e := by
  simp [cmdEngine]

/-- The formula of R46: the fields side by side are the fields shifted into place and or-ed. -/
theorem ofNat_shifted_fields (op : BitVec 8) (e : Engine) :
    BitVec.ofNat 32 (op.toNat ||| e.scale.toNat <<< 8 ||| (roundingModeCode e.rm).toNat <<< 13 |||
      (overflowModeCode e.ov).toNat <<< 16) = assembleWord op e := by
  have hword : (assembleWord op e).toNat =
      op.toNat ||| e.scale.toNat <<< 8 ||| (roundingModeCode e.rm).toNat <<< 13 |||
        (overflowModeCode e.ov).toNat <<< 16 := by
    simp only [assembleWord, BitVec.toNat_append, BitVec.toNat_zero, Nat.zero_shiftLeft,
      Nat.zero_or, Nat.shiftLeft_or_distrib, ← Nat.shiftLeft_add]
    simp only [Nat.reduceAdd, Nat.or_assoc, Nat.or_comm, Nat.or_left_comm]
  rw [← hword, BitVec.ofNat_toNat, BitVec.setWidth_eq]

/-- The codes of R48, as the rows of a table. -/
def roundingModeTable : List (Nat × RoundingMode) :=
  [(0, .up), (1, .down), (2, .ceiling), (3, .floor), (4, .halfUp), (5, .halfDown), (6, .halfEven),
   (7, .unnecessary)]

theorem toNat_roundingModeCode_of_mem {n : Nat} {m : RoundingMode} (h : (n, m) ∈ roundingModeTable) :
    (roundingModeCode m).toNat = n := by
  have rows : ∀ row ∈ roundingModeTable, (roundingModeCode row.2).toNat = row.1 := by decide
  exact rows (n, m) h

/-- The codes of R49, as the rows of a table. -/
def overflowModeTable : List (Nat × OverflowMode) := [(0, .unchecked), (1, .checked)]

theorem toNat_overflowModeCode_of_mem {n : Nat} {m : OverflowMode} (h : (n, m) ∈ overflowModeTable) :
    (overflowModeCode m).toNat = n := by
  have rows : ∀ row ∈ overflowModeTable, (overflowModeCode row.2).toNat = row.1 := by decide
  exact rows (n, m) h

/-! ### The opcode map (R50) -/

/-- The decoder's opcode match inverts `Instr.opcode`, for a given triple. -/
theorem instrOfOpcode_eq_some_iff {op : BitVec 8} {e : Engine} {i : Instr} :
    instrOfOpcode op e = some i ↔ i.opcode = op ∧ i.engine = e := by
  constructor
  · intro h
    unfold instrOfOpcode at h
    split at h <;> cases h <;> exact ⟨BitVec.eq_of_toNat_eq (Eq.symm ‹_›), rfl⟩
  · rintro ⟨rfl, rfl⟩
    cases i <;> rfl

/-- The rows of R50: opcode and command, with the triple `e`. -/
def opcodeMap (e : Engine) : List (Nat × Instr) :=
  [(0x00, .nop e), (0x10, .sfget e), (0x11, .sfmaxi e), (0x12, .sfmini e), (0x13, .sfmul e),
   (0x14, .sfdiv e), (0x15, .sfmod e), (0x20, .rinc e), (0x21, .rincd e), (0x30, .add64w e),
   (0x31, .mul64 e), (0x32, .divw e), (0x33, .wneg e), (0x34, .wfits e), (0x35, .wisneg e),
   (0x36, .wsignum e), (0x37, .isqrt e), (0x40, .add e), (0x41, .sub e), (0x42, .mul e),
   (0x43, .mull e), (0x44, .mulp10 e), (0x45, .sqr e), (0x46, .avg e), (0x47, .abs e),
   (0x48, .neg e), (0x50, .div e), (0x51, .divl e), (0x52, .divp10 e), (0x53, .inv e),
   (0x54, .sqrt e), (0x55, .pow e), (0x56, .shl e), (0x57, .shr e), (0x60, .cmp e),
   (0x61, .sgn e), (0x62, .froml e), (0x63, .tol e), (0x64, .rescale e)]

theorem opcode_and_engine_of_mem_opcodeMap {n : Nat} {e : Engine} {i : Instr}
    (h : (n, i) ∈ opcodeMap e) : i.opcode.toNat = n ∧ i.engine = e := by
  have rows : (opcodeMap e).map (fun row => (row.2.opcode.toNat, row.2.engine)) =
      (opcodeMap e).map (fun row => (row.1, e)) := rfl
  exact Prod.mk.inj (List.map_inj_left.mp rows (n, i) h)

/-- The opcode column of R50. -/
def opcodeColumn : List Nat :=
  [0x00, 0x10, 0x11, 0x12, 0x13, 0x14, 0x15, 0x20, 0x21, 0x30, 0x31, 0x32, 0x33, 0x34, 0x35, 0x36,
   0x37, 0x40, 0x41, 0x42, 0x43, 0x44, 0x45, 0x46, 0x47, 0x48, 0x50, 0x51, 0x52, 0x53, 0x54, 0x55,
   0x56, 0x57, 0x60, 0x61, 0x62, 0x63, 0x64]

theorem map_fst_opcodeMap (e : Engine) : (opcodeMap e).map Prod.fst = opcodeColumn := rfl

theorem opcode_mem_opcodeColumn (i : Instr) : i.opcode.toNat ∈ opcodeColumn := by
  cases i <;> exact List.mem_of_elem_eq_true rfl

/-- The commands with a given triple have the opcodes of the column, each of them. -/
theorem exists_opcode_engine_iff {op : BitVec 8} {e : Engine} :
    (∃ i : Instr, i.opcode = op ∧ i.engine = e) ↔ op.toNat ∈ opcodeColumn := by
  constructor
  · rintro ⟨i, rfl, -⟩
    exact opcode_mem_opcodeColumn i
  · intro h
    rw [← map_fst_opcodeMap e, List.mem_map] at h
    obtain ⟨⟨n, i⟩, hrow, hn⟩ := h
    obtain ⟨hop, hengine⟩ := opcode_and_engine_of_mem_opcodeMap hrow
    exact ⟨i, BitVec.eq_of_toNat_eq (hop.trans hn), hengine⟩

/-! ### What decodes (R47) -/

/-- A word decodes to the command with its opcode and its triple, where the reserved field is 0 and the
scale legal. -/
theorem decode_eq_ok_iff {w : Word32} {i : Instr} :
    decode w = .ok i ↔
      cmdZero w = 0#15 ∧ (cmdEngine w).wf = true ∧ i.opcode = cmdOp w ∧ i.engine = cmdEngine w := by
  rw [← instrOfOpcode_eq_some_iff]
  simp only [decode, Engine.wf, decide_eq_true_eq, show (cmdEngine w).scale = cmdScale w from rfl]
  split
  · simp_all -- a reserved bit
  split
  · simp_all -- the scale above 18
  · cases instrOfOpcode (cmdOp w) (cmdEngine w) <;> simp_all

theorem wf_cmdEngine_iff {w : Word32} :
    (cmdEngine w).wf = true ↔ w.toNat / 2 ^ 8 % 2 ^ 5 ≤ 18 := by
  rw [← toNat_cmdScale]
  exact decide_eq_true_iff

/-- The legal words of R47. -/
theorem exists_decode_iff {w : Word32} :
    (∃ i, decode w = .ok i) ↔
      w.toNat / 2 ^ 17 = 0 ∧ w.toNat / 2 ^ 8 % 2 ^ 5 ≤ 18 ∧ w.toNat % 2 ^ 8 ∈ opcodeColumn := by
  simp only [decode_eq_ok_iff, exists_and_left, exists_opcode_engine_iff, cmdZero_eq_zero_iff,
    wf_cmdEngine_iff, toNat_cmdOp]

/-- Settles O3: the legal words are those of `exists_decode_iff`, and by `decode_eq_ok_iff` a decoded
command has the word's fields. -/
theorem legalWordsExactly : Obligations.LegalWordsExactly := by
  intro w
  refine ⟨exists_decode_iff, fun i hi => ?_⟩
  obtain ⟨-, -, hop, hengine⟩ := decode_eq_ok_iff.mp hi
  rw [hop, hengine]
  simp only [cmdEngine, roundingModeCode_ofCode, overflowModeCode_ofCode]
  exact ⟨toNat_cmdOp w, toNat_cmdScale w, toNat_cmdRm w, toNat_cmdOv w⟩

/-- Settles O4: the assembled word is `assembleWord` of the row's opcode and the triple, and its fields
read back are those of the row's command. -/
theorem opcodeMapDecodes : Obligations.OpcodeMapDecodes := by
  intro e rm ov hwf hrm hov op i hrow
  obtain ⟨rfl, rfl⟩ := opcode_and_engine_of_mem_opcodeMap hrow
  rw [← toNat_roundingModeCode_of_mem hrm, ← toNat_overflowModeCode_of_mem hov, ofNat_shifted_fields,
    decode_eq_ok_iff, cmdZero_assembleWord, cmdEngine_assembleWord, cmdOp_assembleWord]
  exact ⟨rfl, hwf, rfl, rfl⟩

end Sys2Proof
end

section
/-! SUPPORT. A write of an illegal word to `CMD` (spec/30_encoding.md R52). -/

namespace Sys2Proof.Machine

theorem execute_of_illegal {s : State} (h : ¬ ∃ i, decode s.cmd = .ok i) :
    execute s = .next (s.raise .illegalCommand) := by
  obtain ⟨i, hi, -⟩ | ⟨_, -, hraise⟩ := execute_cases (s := s) rfl
  · exact absurd ⟨i, hi⟩ h
  · exact hraise

/-- Settles O7: the word in `CMD` is the datum modulo `2^32`, which keeps the fields R47 tests, so the
word fails `exists_decode_iff` and the launch raises ILLEGAL_COMMAND. -/
theorem illegalWordFaults : Obligations.IllegalWordFaults := by
  intro s data htests
  have hword : (data.extractLsb' 0 32).toNat = data.toNat % 2 ^ 32 := by
    simp [BitVec.extractLsb'_toNat]
  have hzero : data.toNat % 2 ^ 32 / 2 ^ 17 = data.toNat / 2 ^ 17 % 2 ^ 15 := by omega
  have hscale : data.toNat % 2 ^ 32 / 2 ^ 8 % 2 ^ 5 = data.toNat / 2 ^ 8 % 2 ^ 5 := by omega
  have hop : data.toNat % 2 ^ 32 % 2 ^ 8 = data.toNat % 2 ^ 8 := by omega
  have hillegal : ¬ ∃ i, decode (data.extractLsb' 0 32) = .ok i := by
    rw [exists_decode_iff, hword, hzero, hscale, hop]
    rintro ⟨legalZero, legalScale, legalOp⟩
    obtain reserved | tooLarge | unknown := htests
    · exact reserved legalZero
    · exact absurd legalScale (Nat.not_le.mpr tooLarge)
    · exact unknown legalOp
  calc hostWrite 7#3 data s
      = execute { s with cmd := data.extractLsb' 0 32 } := hostWrite_portIndex_cmd s data
    _ = .next (State.raise { s with cmd := data.extractLsb' 0 32 } .illegalCommand) :=
        execute_of_illegal hillegal
    _ = .next { s with cmd := data.extractLsb' 0 32, status := 0x51#32 } := by
        rw [State.raise, statusFault_illegalCommand]

end Sys2Proof.Machine
end

section
/-! SUPPORT. The pseudo-instruction `wr W` (spec/30_encoding.md R56): the halves of a 128-bit pattern as
the spec writes them, by division of the number. -/

namespace Sys2Proof.Machine

section
variable (v : Int)

theorem wrap128_low : (wrap128 v).extractLsb' 0 64 = wrap64 (v % 2 ^ 64) := by
  apply BitVec.eq_of_toNat_eq
  simp only [wrap128, wrap64, BitVec.extractLsb'_toNat, BitVec.toNat_ofInt, Nat.shiftRight_zero]
  omega

theorem wrap128_high : (wrap128 v).extractLsb' 64 64 = wrap64 (v / 2 ^ 64 % 2 ^ 64) := by
  apply BitVec.eq_of_toNat_eq
  simp only [wrap128, wrap64, BitVec.extractLsb'_toNat, BitVec.toNat_ofInt, Nat.shiftRight_eq_div_pow]
  omega

/-- The expansion of R56, the low half first. -/
theorem assembleLine_wrWide :
    assembleLine (.wrWide v) =
      assembleLine (.wr .wl (v % 2 ^ 64)) ++ assembleLine (.wr .wh (v / 2 ^ 64 % 2 ^ 64)) := by
  simp only [assembleLine, wrap128_low, wrap128_high, List.cons_append, List.nil_append]

end

/-- Settles O16: the data are the two halves of the pattern, each write stores its half, and side by
side the halves are the pattern again. -/
theorem wideWritePseudo : Obligations.WideWritePseudo := by
  intro v
  refine ⟨assembleLine_wrWide v, fun s => ?_⟩
  have low := hostWrite_portIndex_of_ne_cmd s ((wrap128 v).extractLsb' 0 64) (p := .wl) (by decide)
  have high := hostWrite_portIndex_of_ne_cmd
    (s.writeReg ((wrap128 v).extractLsb' 0 64) .wl) ((wrap128 v).extractLsb' 64 64)
    (p := .wh) (by decide)
  exact ⟨_, _, _, _, rfl, low, high, rfl, BitVec.extractLsb'_append_extractLsb'⟩

end Sys2Proof.Machine
end

section
/-! SUPPORT. The ScaleMetrics commands (spec/40_scale_metrics.md): the scale factor as a power of ten,
the constants of R20 by the bounds that fix them, and truncating division by its uniqueness. -/

namespace Sys2Proof.Machine

/-! ### The scale factor and the constants (R20) -/

section
variable (scale : BitVec 5)

theorem scaleFactor_eq_pow : scaleFactor scale = 10 ^ scale.toNat := Nat.cast_pow 10 scale.toNat

theorem scaleFactor_pos : 0 < scaleFactor scale := by
  rw [scaleFactor_eq_pow]
  positivity

end

/-- The scale factor of a legal scale fits 64 bits: the largest is `10^18`. -/
theorem fits64_scaleFactor {e : Engine} (h : e.wf = true) : fits64 (scaleFactor e.scale) = true := by
  have legal : e.scale.toNat ≤ 18 := of_decide_eq_true h
  have largest : scaleFactor e.scale ≤ 10 ^ 18 := by
    rw [scaleFactor_eq_pow]
    exact pow_le_pow_right₀ (by decide) legal
  have positive := scaleFactor_pos e.scale
  rw [fits64_iff, i64Min, i64Max]
  omega

/-- A floored quotient is fixed by the two multiples of the divisor around the dividend. -/
theorem fdiv_eq_of_bounds {n f m : Int} (hf : 0 < f) (lower : m * f ≤ n) (upper : n < (m + 1) * f) :
    n.fdiv f = m := by
  rw [Int.fdiv_eq_ediv_of_nonneg n hf.le, Int.ediv_eq_iff_of_pos hf]
  exact ⟨lower, by linarith⟩

section
variable {scale : BitVec 5} {m : Int}

theorem maxIntegerPart_eq_of_bounds (fits : m * scaleFactor scale ≤ i64Max)
    (next : i64Max < (m + 1) * scaleFactor scale) : maxIntegerPart scale = m :=
  fdiv_eq_of_bounds (scaleFactor_pos scale) fits next

/-- `MINI[s]` is a ceiling: the floor of the negated bound, negated. -/
theorem minIntegerPart_eq_of_bounds (fits : i64Min ≤ m * scaleFactor scale)
    (next : (m - 1) * scaleFactor scale < i64Min) : minIntegerPart scale = m := by
  have negated : (-i64Min).fdiv (scaleFactor scale) = -m :=
    fdiv_eq_of_bounds (scaleFactor_pos scale) (by linarith) (by linarith)
  rw [minIntegerPart, negated, neg_neg]

end

/-! ### Truncating division -/

/-- The quotient truncated toward zero and its remainder are the only pair with a remainder smaller than
the divisor that is zero or has the dividend's sign. -/
theorem tdiv_tmod_eq_of_sign {a f q r : Int} (hf : 0 < f) (split : a = f * q + r) (small : |r| < f)
    (pos : 0 < a → 0 ≤ r) (nonpos : a ≤ 0 → r ≤ 0) : a.tdiv f = q ∧ a.tmod f = r := by
  have size : (f.natAbs : Int) = f := Int.natAbs_of_nonneg hf.le
  obtain ⟨above, below⟩ := abs_lt.mp small
  obtain ha | ha := lt_or_ge 0 a
  · exact (Int.tdiv_tmod_unique ha.le hf.ne').mpr ⟨by omega, pos ha, by omega⟩
  · exact (Int.tdiv_tmod_unique' ha hf.ne').mpr ⟨by omega, by omega, nonpos ha⟩

/-! ### The six commands (R60 to R66) -/

section
variable (e : Engine) (s : State)

theorem State.succeed_false_eq (x : Word) :
    s.succeed x false = { s with r := x, status := 0x00#32 } := by
  rw [State.succeed, statusOk_false]

/-- A success whose `V` says that the exact value `x` does not fit 64 bits. -/
theorem State.succeed_not_fits_eq (x : Int) :
    s.succeed (wrap64 x) (!fits64 x) =
      { s with r := wrap64 x, status := if fits64 x then 0x00#32 else 0x02#32 } := by
  cases h : fits64 x <;> simp [State.succeed]

theorem exec_sfget :
    exec (.sfget e) s =
      .next { s with r := wrap64 (scaleFactor e.scale), status := 0x00#32 } := by
  rw [← State.succeed_false_eq]
  rfl

theorem exec_sfmaxi :
    exec (.sfmaxi e) s =
      .next { s with r := wrap64 (maxIntegerPart e.scale), status := 0x00#32 } := by
  rw [← State.succeed_false_eq]
  rfl

theorem exec_sfmini :
    exec (.sfmini e) s =
      .next { s with r := wrap64 (minIntegerPart e.scale), status := 0x00#32 } := by
  rw [← State.succeed_false_eq]
  rfl

theorem exec_sfmul :
    exec (.sfmul e) s = .next { s with
      r := wrap64 (s.opA * scaleFactor e.scale)
      status := if fits64 (s.opA * scaleFactor e.scale) then 0x00#32 else 0x02#32 } := by
  rw [← State.succeed_not_fits_eq]
  rfl

theorem exec_sfdiv :
    exec (.sfdiv e) s =
      .next { s with r := wrap64 (s.opA.tdiv (scaleFactor e.scale)), status := 0x00#32 } := by
  rw [← State.succeed_false_eq]
  rfl

/-- SFMOD's `a - F·(a tdiv F)` is the truncating remainder. -/
theorem exec_sfmod :
    exec (.sfmod e) s =
      .next { s with r := wrap64 (s.opA.tmod (scaleFactor e.scale)), status := 0x00#32 } := by
  rw [← State.succeed_false_eq, Int.tmod_def]
  rfl

end

/-- Settles O31: a legal scale factor fits 64 bits, and the bounds on `m` fix `MAXI[s]` and
`MINI[s]`. -/
theorem scaleConstants : Obligations.ScaleConstants := by
  intro e s hwf
  simp only [← scaleFactor_eq_pow]
  refine ⟨rfl, rfl, rfl, fits64_scaleFactor hwf, exec_sfget e s,
    fun m fits next => ?_, fun m fits next => ?_⟩
  · rw [exec_sfmaxi, maxIntegerPart_eq_of_bounds fits next]
  · rw [exec_sfmini, minIntegerPart_eq_of_bounds fits next]

/-- Settles O33: the equation, the bound and the sign fix the truncated quotient and the remainder. -/
theorem sfdivSfmodTruncate : Obligations.SfdivSfmodTruncate := by
  intro e s
  simp only [← scaleFactor_eq_pow]
  refine ⟨rfl, rfl, fun q r split small pos nonpos => ?_⟩
  obtain ⟨quotient, remainder⟩ :=
    tdiv_tmod_eq_of_sign (scaleFactor_pos e.scale) split small pos nonpos
  rw [exec_sfdiv, exec_sfmod, quotient, remainder]
  exact ⟨rfl, rfl⟩

/-- Settles O32: `V` is the range test of the exact product. -/
theorem sfmulWraps : Obligations.SfmulWraps := by
  intro e s
  rw [← scaleFactor_eq_pow]
  exact ⟨rfl, exec_sfmul e s⟩

end Sys2Proof.Machine
end

section
/-! SUPPORT. The reference rounding of the statements answers at most one integer
(spec/41_rounding_and_overflow.md R74). -/

namespace Sys2Proof.Machine

section
variable {q : ℝ} {x y : ℤ}

/-- Two integers at most one half away from `q`, the lower one first, leave `q` at the midpoint. -/
theorem midpoint_of_two_nearest (hx : |q - x| ≤ 1 / 2) (hy : |q - y| ≤ 1 / 2) (hlt : x < y) :
    y = x + 1 ∧ q = x + 1 / 2 := by
  obtain ⟨lx, ux⟩ := abs_le.mp hx
  obtain ⟨ly, uy⟩ := abs_le.mp hy
  have step : (x : ℝ) + 1 ≤ y := by exact_mod_cast hlt
  have close : y ≤ x + 1 := by exact_mod_cast (by linarith : (y : ℝ) ≤ x + 1)
  exact ⟨by omega, by linarith⟩

/-- A nearest integer is unique where the tie rule `P` never takes both integers beside a midpoint. -/
theorem nearest_unique {P : ℤ → Prop} (tieRule : ∀ m : ℤ, q = m + 1 / 2 → P m → ¬ P (m + 1))
    (hx : |q - x| < 1 / 2 ∨ |q - x| = 1 / 2 ∧ P x) (hy : |q - y| < 1 / 2 ∨ |q - y| = 1 / 2 ∧ P y) :
    x = y := by
  wlog hlt : x < y generalizing x y
  · obtain rfl | hgt := (not_lt.mp hlt).eq_or_lt
    · rfl
    · exact (this hy hx hgt).symm
  have le_half {z : ℤ} (hz : |q - z| < 1 / 2 ∨ |q - z| = 1 / 2 ∧ P z) : |q - z| ≤ 1 / 2 :=
    hz.elim le_of_lt fun tie => tie.1.le
  obtain ⟨rfl, rfl⟩ := midpoint_of_two_nearest (le_half hx) (le_half hy) hlt
  have tx : P x := by
    obtain below | ⟨-, hP⟩ := hx
    · norm_num at below
    · exact hP
  have ty : P (x + 1) := by
    obtain below | ⟨-, hP⟩ := hy
    · push_cast at below
      rw [show (x : ℝ) + 1 / 2 - (x + 1) = -(1 / 2) by ring] at below
      norm_num at below
    · exact hP
  exact absurd ty (tieRule x rfl tx)

/-- Integers of one magnitude on the side of `q` are equal, where `q = 0` allows 0 alone. -/
theorem eq_of_abs_eq_same_side (habs : |x| = |y|) (hx : 0 ≤ q * x) (hy : 0 ≤ q * y)
    (hzero : q = 0 → x = 0) : x = y := by
  obtain h | h := abs_eq_abs.mp habs
  · exact h
  · subst h
    push_cast at hx
    have product : q * y = 0 := by linarith
    obtain hq | hy0 := mul_eq_zero.mp product
    · have := hzero hq
      omega
    · have : y = 0 := by exact_mod_cast hy0
      omega

/-- A midpoint lies between its two neighbours in magnitude too. -/
theorem abs_midpoint_between {m : ℤ} (hq : q = m + 1 / 2) :
    |(m : ℝ)| < |q| ∧ |q| < |((m + 1 : ℤ) : ℝ)| ∨ |((m + 1 : ℤ) : ℝ)| < |q| ∧ |q| < |(m : ℝ)| := by
  subst hq
  push_cast
  obtain hm | hm := le_or_gt 0 m
  · have hm' : (0 : ℝ) ≤ m := by exact_mod_cast hm
    rw [abs_of_nonneg hm', abs_of_nonneg (by linarith : (0 : ℝ) ≤ m + 1 / 2),
      abs_of_nonneg (by linarith : (0 : ℝ) ≤ m + 1)]
    exact .inl ⟨by linarith, by linarith⟩
  · have hm' : (m : ℝ) + 1 ≤ 0 := by exact_mod_cast hm
    rw [abs_of_nonpos (by linarith : (m : ℝ) ≤ 0), abs_of_nonpos (by linarith : (m : ℝ) + 1 / 2 ≤ 0),
      abs_of_nonpos hm']
    exact .inr ⟨by linarith, by linarith⟩

theorem roundsTo_unique {rm : RoundingMode} (hx : RoundsTo rm q x) (hy : RoundsTo rm q y) :
    x = y := by
  cases rm with
  | up =>
    have parts {z : ℤ} (hz : RoundsTo .up q z) : ⌈|q|⌉ = |z| ∧ 0 ≤ q * z := by
      obtain ⟨above, near, side⟩ := hz
      rw [Int.ceil_eq_iff, Int.cast_abs]
      exact ⟨⟨by linarith, above⟩, side⟩
    obtain ⟨sizeX, sideX⟩ := parts hx
    obtain ⟨sizeY, sideY⟩ := parts hy
    refine eq_of_abs_eq_same_side (sizeX.symm.trans sizeY) sideX sideY fun h0 => ?_
    simpa [h0] using sizeX.symm
  | down =>
    have parts {z : ℤ} (hz : RoundsTo .down q z) : ⌊|q|⌋ = |z| ∧ 0 ≤ q * z := by
      obtain ⟨below, near, side⟩ := hz
      rw [Int.floor_eq_iff, Int.cast_abs]
      exact ⟨⟨below, near⟩, side⟩
    obtain ⟨sizeX, sideX⟩ := parts hx
    obtain ⟨sizeY, sideY⟩ := parts hy
    refine eq_of_abs_eq_same_side (sizeX.symm.trans sizeY) sideX sideY fun h0 => ?_
    simpa [h0] using sizeX.symm
  | ceiling =>
    have ceil {z : ℤ} (hz : RoundsTo .ceiling q z) : ⌈q⌉ = z :=
      Int.ceil_eq_iff.mpr ⟨sub_lt_iff_lt_add.mpr hz.2, hz.1⟩
    exact (ceil hx).symm.trans (ceil hy)
  | floor => exact (Int.floor_eq_iff.mpr hx).symm.trans (Int.floor_eq_iff.mpr hy)
  | halfUp =>
    refine nearest_unique (P := fun z : ℤ => |q| < |(z : ℝ)|) (fun m hq low high => ?_) hx hy
    obtain between | between := abs_midpoint_between hq <;> linarith [between.1, between.2]
  | halfDown =>
    refine nearest_unique (P := fun z : ℤ => |(z : ℝ)| < |q|) (fun m hq low high => ?_) hx hy
    obtain between | between := abs_midpoint_between hq <;> linarith [between.1, between.2]
  | halfEven =>
    exact nearest_unique (P := Even) (fun m _ low high => Int.even_add_one.mp high low) hx hy
  | unnecessary => exact_mod_cast hx.symm.trans hy

end

end Sys2Proof.Machine
end

section
/-! SUPPORT. The increment of a real fraction (spec/41_rounding_and_overflow.md R70 to R73, R80): one
rule by mode, of which the remainder form and the digit form are two encodings, and its agreement with
`RoundsTo`. -/

namespace Sys2Proof.Machine

/-- The step that leads away from zero, for a value with the sign of `q` (R71). -/
noncomputable def stepAway (q : ℝ) : ℤ := if q < 0 then -1 else 1

/-- The mode moves the truncated value `t` away from zero for the fraction `q` left over (R70, R73). -/
def MovesAway (rm : RoundingMode) (t : ℤ) (q : ℝ) : Prop :=
  match rm with
  | .up => q ≠ 0
  | .down => False
  | .ceiling => 0 < q
  | .floor => q < 0
  | .halfUp => 1 / 2 ≤ |q|
  | .halfDown => 1 / 2 < |q|
  | .halfEven => 1 / 2 < |q| ∨ |q| = 1 / 2 ∧ Odd t
  | .unnecessary => False

open Classical in
/-- The rounding increment for the truncated value `t` and the fraction `q` left over. -/
noncomputable def fracInc (rm : RoundingMode) (t : ℤ) (q : ℝ) : Except Cause ℤ :=
  if rm = .unnecessary ∧ q ≠ 0 then .error .roundingRequired
  else .ok (if MovesAway rm t q then stepAway q else 0)

section
variable (t : ℤ) (q : ℝ)

@[simp] theorem movesAway_up : MovesAway .up t q ↔ q ≠ 0 := Iff.rfl
@[simp] theorem movesAway_down : MovesAway .down t q ↔ False := Iff.rfl
@[simp] theorem movesAway_ceiling : MovesAway .ceiling t q ↔ 0 < q := Iff.rfl
@[simp] theorem movesAway_floor : MovesAway .floor t q ↔ q < 0 := Iff.rfl
@[simp] theorem movesAway_halfUp : MovesAway .halfUp t q ↔ 1 / 2 ≤ |q| := Iff.rfl
@[simp] theorem movesAway_halfDown : MovesAway .halfDown t q ↔ 1 / 2 < |q| := Iff.rfl
@[simp] theorem movesAway_halfEven :
    MovesAway .halfEven t q ↔ 1 / 2 < |q| ∨ |q| = 1 / 2 ∧ Odd t := Iff.rfl
@[simp] theorem movesAway_unnecessary : MovesAway .unnecessary t q ↔ False := Iff.rfl

end

theorem not_movesAway_zero (rm : RoundingMode) (t : ℤ) : ¬ MovesAway rm t 0 := by
  cases rm <;> norm_num [MovesAway]

section
variable {rm : RoundingMode} {t : ℤ} {q : ℝ}

theorem stepAway_of_neg (h : q < 0) : stepAway q = -1 := if_pos h

theorem stepAway_of_nonneg (h : 0 ≤ q) : stepAway q = 1 := if_neg (not_lt.mpr h)

theorem fracInc_of_movesAway (h : MovesAway rm t q) : fracInc rm t q = .ok (stepAway q) := by
  have mode : rm ≠ .unnecessary := by
    rintro rfl
    exact h
  simp [fracInc, mode, h]

theorem fracInc_of_not_movesAway (h : ¬ MovesAway rm t q) (whole : rm = .unnecessary → q = 0) :
    fracInc rm t q = .ok 0 := by
  have noFault : ¬ (rm = .unnecessary ∧ q ≠ 0) := fun fault => fault.2 (whole fault.1)
  rw [fracInc, if_neg noFault, if_neg h]

theorem fracInc_unnecessary (h : q ≠ 0) : fracInc .unnecessary t q = .error .roundingRequired :=
  if_pos ⟨rfl, h⟩

theorem fracInc_eq_ite {P : Prop} [Decidable P] (mode : rm ≠ .unnecessary)
    (h : MovesAway rm t q ↔ P) : fracInc rm t q = .ok (if P then stepAway q else 0) := by
  have noFault : ¬ (rm = .unnecessary ∧ q ≠ 0) := fun fault => mode fault.1
  rw [fracInc, if_neg noFault]
  simp only [h]

theorem fracInc_ceiling (h : q ≠ 0) : fracInc .ceiling t q = .ok (if q < 0 then 0 else 1) := by
  obtain neg | pos := h.lt_or_gt
  · rw [if_pos neg]
    exact fracInc_of_not_movesAway ((movesAway_ceiling t q).not.mpr neg.not_gt) (by simp)
  · rw [if_neg pos.not_gt, fracInc_of_movesAway ((movesAway_ceiling t q).mpr pos),
      stepAway_of_nonneg pos.le]

theorem fracInc_floor : fracInc .floor t q = .ok (if q < 0 then -1 else 0) := by
  obtain neg | nonneg := lt_or_ge q 0
  · rw [if_pos neg, fracInc_of_movesAway ((movesAway_floor t q).mpr neg), stepAway_of_neg neg]
  · rw [if_neg nonneg.not_gt]
    exact fracInc_of_not_movesAway ((movesAway_floor t q).not.mpr nonneg.not_gt) (by simp)

/-- The truncated value matters for HALF_EVEN at the midpoint alone, and there by its parity. -/
theorem fracInc_eq_zero_truncated (h : ¬ (rm = .halfEven ∧ |q| = 1 / 2 ∧ Odd t)) :
    fracInc rm t q = fracInc rm 0 q := by
  have same : MovesAway rm t q ↔ MovesAway rm 0 q := by
    cases rm with
    | halfEven =>
      have noTie : ¬ (|q| = 1 / 2 ∧ Odd t) := fun tie => h ⟨rfl, tie⟩
      simp only [MovesAway, noTie, show ¬ Odd (0 : ℤ) by decide, and_false]
    | _ => rfl
  rw [fracInc, fracInc, propext same]

theorem odd_stepAway (q : ℝ) : Odd (stepAway q) := by
  unfold stepAway
  split_ifs <;> decide

theorem abs_sub_stepAway (hq : |q| < 1) : |q - stepAway q| = 1 - |q| := by
  obtain ⟨low, high⟩ := abs_lt.mp hq
  obtain h | h := lt_or_ge q 0
  · rw [stepAway_of_neg h, abs_of_neg h, abs_of_pos (by push_cast; linarith)]
    push_cast
    ring
  · rw [stepAway_of_nonneg h, abs_of_nonneg h, abs_of_neg (by push_cast; linarith)]
    push_cast
    ring

/-! ### Its agreement with the reference -/

/-- Where `t` lies on the side of the fraction `q`, magnitudes add (R71). -/
theorem abs_add_of_same_side (side : 0 ≤ t * q) : |t + q| = |(t : ℝ)| + |q| :=
  (abs_add_eq_add_abs_iff _ _).mpr (mul_nonneg_iff.mp side)

theorem abs_add_stepAway (hne : q ≠ 0) (side : 0 ≤ t * q) :
    |(t : ℝ) + stepAway q| = |(t : ℝ)| + 1 := by
  obtain h | h := hne.lt_or_gt
  · have ht : (t : ℝ) ≤ 0 := nonpos_of_mul_nonneg_left side h
    rw [stepAway_of_neg h, abs_of_nonpos ht, abs_of_neg (by push_cast; linarith)]
    push_cast
    ring
  · have ht : 0 ≤ (t : ℝ) := nonneg_of_mul_nonneg_left side h
    rw [stepAway_of_nonneg h.le, abs_of_nonneg ht, abs_of_pos (by push_cast; linarith)]
    push_cast
    ring

/-- The step away from zero stays on the side of the exact value. -/
theorem mul_add_stepAway_nonneg (hne : q ≠ 0) (side : 0 ≤ t * q) :
    0 ≤ (t + q) * (t + stepAway q) := by
  obtain h | h := hne.lt_or_gt
  · have ht : (t : ℝ) ≤ 0 := nonpos_of_mul_nonneg_left side h
    rw [stepAway_of_neg h]
    push_cast
    exact mul_nonneg_of_nonpos_of_nonpos (by linarith) (by linarith)
  · have ht : 0 ≤ (t : ℝ) := nonneg_of_mul_nonneg_left side h
    rw [stepAway_of_nonneg h.le]
    push_cast
    exact mul_nonneg (by linarith) (by linarith)

theorem roundsTo_stepAway (hq : |q| < 1) (side : 0 ≤ t * q) (moves : MovesAway rm t q) :
    RoundsTo rm (t + q) (t + stepAway q : ℤ) := by
  have hne : q ≠ 0 := by
    rintro rfl
    exact not_movesAway_zero rm t moves
  have exactAbs := abs_add_of_same_side side
  have movedAbs := abs_add_stepAway hne side
  have distance : |t + q - (t + stepAway q)| = 1 - |q| := by
    rw [add_sub_add_left_eq_sub, abs_sub_stepAway hq]
  obtain ⟨low, high⟩ := abs_lt.mp hq
  have size := abs_pos.mpr hne
  cases rm with
  | up =>
    simp only [RoundsTo, Int.cast_add, exactAbs, movedAbs]
    exact ⟨by linarith, by linarith, mul_add_stepAway_nonneg hne side⟩
  | down => exact moves.elim
  | ceiling =>
    simp only [RoundsTo, stepAway_of_nonneg (le_of_lt moves), Int.cast_add, Int.cast_one]
    have positive : 0 < q := moves
    exact ⟨by linarith, by linarith⟩
  | floor =>
    simp only [RoundsTo, stepAway_of_neg moves, Int.cast_add, Int.cast_neg, Int.cast_one]
    have negative : q < 0 := moves
    exact ⟨by linarith, by linarith⟩
  | halfUp =>
    simp only [RoundsTo, Int.cast_add, distance, exactAbs, movedAbs]
    obtain above | tie := lt_or_eq_of_le (show 1 / 2 ≤ |q| from moves)
    · exact .inl (by linarith)
    · exact .inr ⟨by linarith, by linarith⟩
  | halfDown =>
    simp only [RoundsTo, Int.cast_add, distance]
    have above : 1 / 2 < |q| := moves
    exact .inl (by linarith)
  | halfEven =>
    simp only [RoundsTo, Int.cast_add, distance]
    obtain above | ⟨tie, odd⟩ := moves
    · exact .inl (by linarith)
    · exact .inr ⟨by linarith, odd.add_odd (odd_stepAway q)⟩
  | unnecessary => exact moves.elim

theorem roundsTo_truncated (hq : |q| < 1) (side : 0 ≤ t * q) (stays : ¬ MovesAway rm t q)
    (whole : rm = .unnecessary → q = 0) : RoundsTo rm (t + q) t := by
  have exactAbs := abs_add_of_same_side side
  have distance : |t + q - t| = |q| := by rw [add_sub_cancel_left]
  obtain ⟨low, high⟩ := abs_lt.mp hq
  cases rm with
  | up =>
    obtain rfl : q = 0 := not_not.mp stays
    simp [RoundsTo, mul_self_nonneg]
  | down =>
    simp only [RoundsTo, exactAbs]
    refine ⟨by linarith [abs_nonneg q], by linarith, ?_⟩
    rw [add_mul, mul_comm q]
    exact add_nonneg (mul_self_nonneg _) side
  | ceiling =>
    have nonpos : q ≤ 0 := not_lt.mp stays
    exact ⟨by linarith, by linarith⟩
  | floor =>
    have nonneg : 0 ≤ q := not_lt.mp stays
    exact ⟨by linarith, by linarith⟩
  | halfUp =>
    simp only [RoundsTo, distance]
    exact .inl (not_le.mp stays)
  | halfDown =>
    simp only [RoundsTo, distance, exactAbs]
    obtain below | tie := lt_or_eq_of_le (not_lt.mp stays)
    · exact .inl below
    · exact .inr ⟨tie, by linarith⟩
  | halfEven =>
    simp only [RoundsTo, distance]
    obtain ⟨notAbove, noOddTie⟩ := not_or.mp stays
    obtain below | tie := lt_or_eq_of_le (not_lt.mp notAbove)
    · exact .inl below
    · exact .inr ⟨tie, Int.not_odd_iff_even.mp fun odd => noOddTie ⟨tie, odd⟩⟩
  | unnecessary => simp [RoundsTo, whole rfl]

/-- The increment of the fraction is the one that makes the truncated value the correctly rounded one:
the key fact of this part. In mode UNNECESSARY a fraction of magnitude below 1 other than 0 leaves no
integer. -/
theorem fracInc_eq_ok_iff (hq : |q| < 1) (side : 0 ≤ t * q) {i : ℤ} :
    fracInc rm t q = .ok i ↔ RoundsTo rm (t + q) (t + i : ℤ) := by
  have ok_iff {j : ℤ} (hinc : fracInc rm t q = .ok j) (hj : RoundsTo rm (t + q) (t + j : ℤ)) :
      fracInc rm t q = .ok i ↔ RoundsTo rm (t + q) (t + i : ℤ) := by
    rw [hinc, Except.ok.injEq]
    exact ⟨fun h => h ▸ hj, fun h => add_left_cancel (roundsTo_unique hj h)⟩
  by_cases moves : MovesAway rm t q
  · exact ok_iff (fracInc_of_movesAway moves) (roundsTo_stepAway hq side moves)
  by_cases whole : rm = .unnecessary → q = 0
  · refine ok_iff (fracInc_of_not_movesAway moves whole) ?_
    rw [add_zero]
    exact roundsTo_truncated hq side moves whole
  · obtain ⟨rfl, hne⟩ := Classical.not_imp.mp whole
    rw [fracInc_unnecessary hne]
    refine iff_of_false (by simp) fun h => ?_
    have integer : q = i := by simpa [RoundsTo] using h
    rw [integer] at hq hne
    have small : |i| < 1 := by exact_mod_cast hq
    exact hne (by exact_mod_cast Int.abs_lt_one_iff.mp small)

end

end Sys2Proof.Machine
end

section
/-! SUPPORT. The remainder form of the increment and the rounded quotient
(spec/41_rounding_and_overflow.md R70, R73, R74). -/

namespace Sys2Proof.Machine

section
variable {rm : RoundingMode} {t n r d : ℤ}

theorem abs_div_eq_natAbs_div (r d : ℤ) : |(r : ℝ) / d| = (r.natAbs : ℝ) / d.natAbs := by
  rw [abs_div, Nat.cast_natAbs, Nat.cast_natAbs, Int.cast_abs, Int.cast_abs]

theorem half_lt_abs_div_iff (hd : d ≠ 0) : 1 / 2 < |(r : ℝ) / d| ↔ d.natAbs < 2 * r.natAbs := by
  have size : (0 : ℝ) < d.natAbs := by exact_mod_cast Int.natAbs_pos.mpr hd
  rw [abs_div_eq_natAbs_div, div_lt_div_iff₀ two_pos size, one_mul, mul_comm (r.natAbs : ℝ)]
  norm_cast

theorem abs_div_eq_half_iff (hd : d ≠ 0) : |(r : ℝ) / d| = 1 / 2 ↔ 2 * r.natAbs = d.natAbs := by
  have size : (d.natAbs : ℝ) ≠ 0 := by exact_mod_cast Int.natAbs_ne_zero.mpr hd
  rw [abs_div_eq_natAbs_div, div_eq_div_iff size two_ne_zero, one_mul, mul_comm (r.natAbs : ℝ)]
  norm_cast

theorem half_le_abs_div_iff (hd : d ≠ 0) : 1 / 2 ≤ |(r : ℝ) / d| ↔ d.natAbs ≤ 2 * r.natAbs := by
  rw [le_iff_lt_or_eq, le_iff_lt_or_eq, half_lt_abs_div_iff hd, eq_comm, abs_div_eq_half_iff hd, eq_comm]

theorem abs_div_lt_one_iff (hd : d ≠ 0) : |(r : ℝ) / d| < 1 ↔ |r| < |d| := by
  have size : (0 : ℝ) < |(d : ℝ)| := abs_pos.mpr (by exact_mod_cast hd)
  rw [abs_div, div_lt_one size]
  norm_cast

/-- The sign of the fraction comes from remainder and divisor (R71). -/
theorem stepAway_div (hr : r ≠ 0) (hd : d ≠ 0) : stepAway ((r : ℝ) / d) = (r * d).sign := by
  obtain neg | pos := (mul_ne_zero hr hd).lt_or_gt
  · have : (r : ℝ) / d < 0 := by
      rw [div_neg_iff, ← mul_neg_iff]
      exact_mod_cast neg
    rw [stepAway_of_neg this, Int.sign_eq_neg_one_of_neg neg]
  · have : 0 < (r : ℝ) / d := by
      rw [div_pos_iff, ← mul_pos_iff]
      exact_mod_cast pos
    rw [stepAway_of_nonneg this.le, Int.sign_eq_one_of_pos pos]

/-- The remainder form is the increment of the fraction `r/d`. -/
theorem inc_eq_fracInc (hd : d ≠ 0) : inc rm t r d = fracInc rm t ((r : ℝ) / d) := by
  obtain rfl | hr := eq_or_ne r 0
  · simp [inc, fracInc, not_movesAway_zero]
  have hne : (r : ℝ) / d ≠ 0 := div_ne_zero (Int.cast_ne_zero.mpr hr) (Int.cast_ne_zero.mpr hd)
  have hneg : (decide (r < 0) != decide (d < 0)) = true ↔ (r : ℝ) / d < 0 := by
    rw [div_neg_iff, Int.cast_lt_zero, Int.cast_lt_zero, Int.cast_pos, Int.cast_pos, bne_iff_ne,
      ne_eq, decide_eq_decide]
    omega
  have above := half_lt_abs_div_iff (r := r) hd
  have tie := abs_div_eq_half_iff (r := r) hd
  simp only [inc, if_neg hr, hneg]
  cases rm with
  | up => exact (fracInc_of_movesAway ((movesAway_up t _).mpr hne)).symm
  | down => exact (fracInc_of_not_movesAway (movesAway_down t _).mp (by simp)).symm
  | ceiling => exact (fracInc_ceiling hne).symm
  | floor => exact fracInc_floor.symm
  | halfUp => exact (fracInc_eq_ite (by decide) ((movesAway_halfUp t _).trans (half_le_abs_div_iff hd))).symm
  | halfDown => exact (fracInc_eq_ite (by decide) ((movesAway_halfDown t _).trans above)).symm
  | halfEven =>
    rw [← ite_or]
    refine (fracInc_eq_ite (by decide) ?_).symm
    rw [movesAway_halfEven, above, tie, Int.odd_iff]
  | unnecessary => exact (fracInc_unnecessary hne).symm

/-- The dividend over the divisor is the truncated quotient plus the fraction of the remainder (R71). -/
theorem tdiv_add_tmod_div (n : ℤ) (hd : d ≠ 0) : (n.tdiv d : ℝ) + (n.tmod d : ℝ) / d = (n : ℝ) / d := by
  have hd' : (d : ℝ) ≠ 0 := Int.cast_ne_zero.mpr hd
  rw [eq_div_iff hd', add_mul, div_mul_cancel₀ _ hd', mul_comm (n.tdiv d : ℝ)]
  exact_mod_cast Int.mul_tdiv_add_tmod n d

theorem abs_tmod_lt (n : ℤ) (hd : d ≠ 0) : |n.tmod d| < |d| := by
  rw [Int.abs_eq_natAbs, Int.abs_eq_natAbs, Int.natAbs_tmod]
  exact_mod_cast Nat.mod_lt _ (Int.natAbs_pos.mpr hd)

/-- The truncated quotient lies on the side of the fraction left over: each is zero or has the sign of
the true quotient (R71). -/
theorem tdiv_same_side_tmod (n d : ℤ) : 0 ≤ (n.tdiv d : ℝ) * ((n.tmod d : ℝ) / d) := by
  have product : 0 ≤ n.tdiv d * (n.tmod d * d) := by
    rw [← Int.sign_nonneg_iff, Int.sign_mul, Int.sign_mul, Int.sign_tdiv, Int.sign_tmod]
    split_ifs <;> simp [mul_self_nonneg]
  rw [← mul_div_assoc, div_eq_mul_inv, ← div_self_mul_self', ← mul_div_assoc, mul_assoc]
  exact div_nonneg (by exact_mod_cast product) (mul_self_nonneg _)

/-- The remainder vanishes exactly where the quotient is an integer. -/
theorem tmod_ne_zero_iff_div_ne_int (n : ℤ) (hd : d ≠ 0) :
    n.tmod d ≠ 0 ↔ ∀ x : ℤ, (n : ℝ) / d ≠ x := by
  have hd' : (d : ℝ) ≠ 0 := Int.cast_ne_zero.mpr hd
  rw [ne_eq, ← Int.dvd_iff_tmod_eq_zero, dvd_iff_exists_eq_mul_left, not_exists]
  refine forall_congr' fun x => not_congr ?_
  rw [div_eq_iff hd']
  norm_cast

end

/-- `ROUNDQ` adds to the truncated quotient the increment of the fraction left over. -/
theorem roundq_eq_ok_iff {rm : RoundingMode} {n d x : ℤ} (hd : d ≠ 0) :
    roundq rm n d = .ok x ↔ fracInc rm (n.tdiv d) ((n.tmod d : ℝ) / d) = .ok (x - n.tdiv d) := by
  rw [roundq, inc_eq_fracInc hd]
  cases fracInc rm (n.tdiv d) ((n.tmod d : ℝ) / d) with
  | ok i => simp [eq_sub_iff_add_eq']
  | error c => simp

/-- Settles O23: the truncated quotient plus the fraction left over is the true quotient, and the increment
of that fraction makes it the correctly rounded one. -/
theorem roundqIsReference : Obligations.RoundqIsReference := by
  intro rm n d hd
  refine ⟨fun x => ?_, fun c => ?_⟩
  · rw [roundq_eq_ok_iff hd, fracInc_eq_ok_iff ((abs_div_lt_one_iff hd).mpr (abs_tmod_lt n hd))
      (tdiv_same_side_tmod n d), tdiv_add_tmod_div n hd, add_sub_cancel]
  · rw [roundq_error_iff, tmod_ne_zero_iff_div_ne_int n hd]

/-! ### The half modes (R73) -/

section
variable {rm : RoundingMode} {t : ℤ} {q : ℝ}

theorem not_movesAway_of_lt_half (below : |q| < 1 / 2)
    (half : rm ∈ [RoundingMode.halfUp, .halfDown, .halfEven]) : ¬ MovesAway rm t q := by
  obtain rfl | rfl | rfl : rm = .halfUp ∨ rm = .halfDown ∨ rm = .halfEven := by simpa using half
  · exact not_le.mpr below
  · exact below.not_gt
  · rintro (above | ⟨tie, -⟩)
    · exact below.not_gt above
    · exact below.ne tie

theorem movesAway_of_half_lt (above : 1 / 2 < |q|)
    (half : rm ∈ [RoundingMode.halfUp, .halfDown, .halfEven]) : MovesAway rm t q := by
  obtain rfl | rfl | rfl : rm = .halfUp ∨ rm = .halfDown ∨ rm = .halfEven := by simpa using half
  · exact above.le
  · exact above
  · exact .inl above

/-- At the midpoint HALF_EVEN goes by the parity of the truncated value. -/
theorem movesAway_halfEven_of_tie (tie : |q| = 1 / 2) : MovesAway .halfEven t q ↔ Odd t := by
  simp [tie]

end

section
variable {rm : RoundingMode} {n d : ℤ}

theorem roundq_of_movesAway (hd : d ≠ 0) (h : MovesAway rm (n.tdiv d) ((n.tmod d : ℝ) / d)) :
    roundq rm n d = .ok (n.tdiv d + stepAway ((n.tmod d : ℝ) / d)) := by
  rw [roundq_eq_ok_iff hd, fracInc_of_movesAway h, add_sub_cancel_left]

theorem roundq_of_not_movesAway (hd : d ≠ 0) (mode : rm ≠ .unnecessary)
    (h : ¬ MovesAway rm (n.tdiv d) ((n.tmod d : ℝ) / d)) : roundq rm n d = .ok (n.tdiv d) := by
  rw [roundq_eq_ok_iff hd, fracInc_of_not_movesAway h (absurd · mode), sub_self]

/-- A non-zero remainder has the sign of the dividend, so its fraction has that of the quotient (R71). -/
theorem stepAway_tmod_div (hd : d ≠ 0) (hr : n.tmod d ≠ 0) :
    stepAway ((n.tmod d : ℝ) / d) = (n * d).sign := by
  have inexact : ¬ d ∣ n := Int.dvd_iff_tmod_eq_zero.not.mpr hr
  rw [stepAway_div hr hd, Int.sign_mul, Int.sign_mul, Int.sign_tmod, if_neg inexact]

end

/-- Settles O26: twice the remainder against the divisor places the fraction against one half, where the
rule of each HALF mode decides; HALF_EVEN steps from an odd value by an odd step. -/
theorem halfModesAtMidpoint : Obligations.HalfModesAtMidpoint := by
  intro n d hd
  simp only [Int.abs_eq_natAbs]
  have midpoint := half_le_abs_div_iff (r := n.tmod d) hd
  have above := half_lt_abs_div_iff (r := n.tmod d) hd
  have tie := abs_div_eq_half_iff (r := n.tmod d) hd
  refine ⟨fun small rm half => ?_, fun large rm half => ?_, fun equal => ?_⟩
  · refine roundq_of_not_movesAway hd ?_ (not_movesAway_of_lt_half (not_le.mp ?_) half)
    · rintro rfl
      simp at half
    · rw [midpoint]
      omega
  · rw [roundq_of_movesAway hd (movesAway_of_half_lt (above.mpr (by omega)) half),
      stepAway_tmod_div hd (by omega)]
  · have atHalf := tie.mpr (by omega)
    have even_d : Even d := by
      rw [← Int.natAbs_even]
      exact ⟨(n.tmod d).natAbs, by omega⟩
    have step := stepAway_tmod_div hd (n := n) (by omega)
    have up : roundq .halfUp n d = .ok (n.tdiv d + (n * d).sign) := by
      rw [roundq_of_movesAway hd ((movesAway_halfUp _ _).mpr atHalf.ge), step]
    have down : roundq .halfDown n d = .ok (n.tdiv d) :=
      roundq_of_not_movesAway hd (by decide) ((movesAway_halfDown _ _).not.mpr atHalf.not_gt)
    have moves_iff := movesAway_halfEven_of_tie (t := n.tdiv d) atHalf
    have of_odd (odd : Odd (n.tdiv d)) : roundq .halfEven n d = .ok (n.tdiv d + (n * d).sign) := by
      rw [roundq_of_movesAway hd (moves_iff.mpr odd), step]
    have of_even (even : Even (n.tdiv d)) : roundq .halfEven n d = .ok (n.tdiv d) :=
      roundq_of_not_movesAway hd (by decide) (moves_iff.not.mpr (Int.not_odd_iff_even.mpr even))
    refine ⟨even_d, up, down, of_odd, of_even, fun x hx => ?_⟩
    obtain even | odd := Int.even_or_odd (n.tdiv d)
    · rw [of_even even, Except.ok.injEq] at hx
      exact hx ▸ even
    · rw [of_odd odd, Except.ok.injEq, ← step] at hx
      exact hx ▸ odd.add_odd (odd_stepAway _)

end Sys2Proof.Machine
end

section
/-! SUPPORT. The commands RINC and RINCD (spec/41_rounding_and_overflow.md R78 to R80). -/

namespace Sys2Proof.Machine

/-! ### The write-back of an increment -/

section
variable (s : State) {rm : RoundingMode} {t i : ℤ} {q : ℝ}

theorem finishFit_fracInc_of_roundsTo (hq : |q| < 1) (hi : RoundsTo rm q i)
    (noOddTie : ¬ (rm = .halfEven ∧ |q| = 1 / 2 ∧ Odd t)) :
    s.finishFit (fracInc rm t q) = .next { s with r := wrap64 i, status := 0x00#32 } := by
  have inc_eq : fracInc rm 0 q = .ok i := by
    rw [fracInc_eq_ok_iff hq (by simp), Int.cast_zero, zero_add, zero_add]
    exact hi
  rw [fracInc_eq_zero_truncated noOddTie, inc_eq, State.finishFit_ok, State.succeed_false_eq]

theorem finishFit_fracInc_of_oddTie (tie : |q| = 1 / 2) (odd : Odd t) :
    s.finishFit (fracInc .halfEven t q) =
      .next { s with r := wrap64 (stepAway q), status := 0x00#32 } := by
  rw [fracInc_of_movesAway ((movesAway_halfEven t q).mpr (.inr ⟨tie, odd⟩)), State.finishFit_ok,
    State.succeed_false_eq]

theorem finishFit_fracInc_unnecessary (hne : q ≠ 0) :
    s.finishFit (fracInc .unnecessary t q) = .next { s with status := 0x21#32 } := by
  rw [fracInc_unnecessary hne, State.finishFit_error, State.raise, statusFault_roundingRequired]

theorem State.raise_invalidArgument_eq :
    s.raise .invalidArgument = { s with status := 0x41#32 } := by
  rw [State.raise, statusFault_invalidArgument]

end

/-! ### RINC: the remainder form (R78) -/

section
variable (e : Engine) (s : State)

theorem exec_rinc_of_invalid (h : s.opC = 0 ∨ |s.opC| ≤ |s.opB|) :
    exec (.rinc e) s = .next { s with status := 0x41#32 } := by
  rw [Int.abs_eq_natAbs, Int.abs_eq_natAbs, Int.ofNat_le] at h
  rw [← State.raise_invalidArgument_eq]
  exact if_pos h

theorem exec_rinc_of_valid (hd : s.opC ≠ 0) (h : |s.opB| < |s.opC|) :
    exec (.rinc e) s = s.finishFit (fracInc e.rm s.opA ((s.opB : ℝ) / s.opC)) := by
  rw [Int.abs_eq_natAbs, Int.abs_eq_natAbs, Int.ofNat_lt] at h
  rw [← inc_eq_fracInc hd]
  exact if_neg (not_or.mpr ⟨hd, not_le.mpr h⟩)

end

/-- Settles O28: inside its precondition RINC writes back the increment of the fraction `r/d`. -/
theorem rincSelectsIncrement : Obligations.RincSelectsIncrement := by
  intro e s
  refine ⟨rfl, exec_rinc_of_invalid e s, fun hd small => ?_⟩
  have tie_iff : |(s64 s.b : ℝ) / s64 s.c| = 1 / 2 ↔ 2 * |s64 s.b| = |s64 s.c| := by
    rw [abs_div_eq_half_iff hd, Int.abs_eq_natAbs, Int.abs_eq_natAbs]
    omega
  rw [exec_rinc_of_valid e s hd small, ← tie_iff]
  refine ⟨fun i hi noOddTie => ?_, fun mode tie odd => ?_, fun mode hr => ?_⟩
  · exact finishFit_fracInc_of_roundsTo s ((abs_div_lt_one_iff hd).mpr small) hi noOddTie
  · have hr : s64 s.b ≠ 0 := by
      intro h0
      norm_num [h0] at tie
    rw [mode, finishFit_fracInc_of_oddTie s tie odd, stepAway_div hr hd]
  · rw [mode]
    exact finishFit_fracInc_unnecessary s
      (div_ne_zero (Int.cast_ne_zero.mpr hr) (Int.cast_ne_zero.mpr hd))

/-! ### The digit form and RINCD (R79, R80) -/

/-- `f` is a fraction whose first decimal digit is `dg` and which has further non-zero digits exactly
when `nz` is set (R80). -/
structure DigitFraction (dg : ℕ) (nz : Bool) (f : ℝ) : Prop where
  low : (dg : ℝ) / 10 ≤ f
  high : f < ((dg : ℝ) + 1) / 10
  exact_iff : f = (dg : ℝ) / 10 ↔ nz = false

namespace DigitFraction

section
variable {dg : ℕ} {nz : Bool} {f : ℝ} (h : DigitFraction dg nz f)
include h

theorem nonneg : 0 ≤ f := le_trans (by positivity) h.low

theorem lt_one (hdg : dg ≤ 9) : f < 1 := by
  have : (dg : ℝ) ≤ 9 := by exact_mod_cast hdg
  linarith [h.high]

theorem eq_zero_iff : f = 0 ↔ dg = 0 ∧ nz = false := by
  rw [← h.exact_iff]
  obtain rfl | pos := Nat.eq_zero_or_pos dg
  · simp
  · have : (0 : ℝ) < dg := by exact_mod_cast pos
    exact iff_of_false (by linarith [h.low]) (by omega)

/-- The digit 5 splits the fractions at one half: `above` and `tie` of R80. -/
theorem compare_half :
    (1 / 2 < f ↔ 5 < dg ∨ dg = 5 ∧ nz = true) ∧ (f = 1 / 2 ↔ dg = 5 ∧ nz = false) := by
  obtain ⟨low, high, exact_iff⟩ := h
  obtain below | rfl | above := lt_trichotomy dg 5
  · have : (dg : ℝ) + 1 ≤ 5 := by exact_mod_cast below
    exact ⟨iff_of_false (by linarith) (by omega), iff_of_false (by linarith) (by omega)⟩
  · have half : ((5 : ℕ) : ℝ) / 10 = 1 / 2 := by norm_num
    rw [half] at low exact_iff
    rw [low.lt_iff_ne', ne_eq, exact_iff]
    simp
  · have : (6 : ℝ) ≤ dg := by exact_mod_cast above
    exact ⟨iff_of_true (by linarith) (.inl above), iff_of_false (by linarith) (by omega)⟩

end

end DigitFraction

/-- A fraction under a sign flag (R79). -/
noncomputable def signedFraction (ng : Bool) (f : ℝ) : ℝ := if ng then -f else f

section
variable {dg : ℕ} {nz ng : Bool} {f : ℝ}

theorem signedFraction_eq_zero_iff : signedFraction ng f = 0 ↔ f = 0 := by
  cases ng <;> simp [signedFraction]

theorem abs_signedFraction (hf : 0 ≤ f) : |signedFraction ng f| = f := by
  cases ng <;> simp [signedFraction, abs_of_nonneg hf]

theorem signedFraction_neg_iff (hf : 0 < f) : signedFraction ng f < 0 ↔ ng = true := by
  cases ng <;> simp [signedFraction, hf, hf.le]

theorem stepAway_signedFraction (hf : 0 < f) : stepAway (signedFraction ng f) = if ng then -1 else 1 := by
  simp only [stepAway, signedFraction_neg_iff hf]

/-- The digit form is the increment of any fraction the digits can stand for. -/
theorem incd_eq_fracInc {rm : RoundingMode} {t : ℤ} (h : DigitFraction dg nz f) :
    incd rm t dg nz ng = fracInc rm t (signedFraction ng f) := by
  by_cases zero : dg = 0 ∧ nz = false
  · rw [incd, if_pos zero, signedFraction_eq_zero_iff.mpr (h.eq_zero_iff.mpr zero),
      fracInc_of_not_movesAway (not_movesAway_zero rm t) fun _ => rfl]
  have hf : f ≠ 0 := h.eq_zero_iff.not.mpr zero
  have pos : 0 < f := lt_of_le_of_ne' h.nonneg hf
  have hne : signedFraction ng f ≠ 0 := signedFraction_eq_zero_iff.not.mpr hf
  have size := abs_signedFraction (ng := ng) h.nonneg
  obtain ⟨above, tie⟩ := h.compare_half
  simp only [incd, if_neg zero, ← stepAway_signedFraction pos]
  cases rm with
  | up => exact (fracInc_of_movesAway ((movesAway_up t _).mpr hne)).symm
  | down => exact (fracInc_of_not_movesAway (movesAway_down t _).mp (by simp)).symm
  | ceiling =>
    simp only [← signedFraction_neg_iff (ng := ng) pos]
    exact (fracInc_ceiling hne).symm
  | floor =>
    simp only [← signedFraction_neg_iff (ng := ng) pos]
    exact fracInc_floor.symm
  | halfUp =>
    refine (fracInc_eq_ite (by decide) ?_).symm
    rw [movesAway_halfUp, size, le_iff_lt_or_eq, eq_comm, above, tie]
    simp
  | halfDown =>
    refine (fracInc_eq_ite (by decide) ?_).symm
    rw [movesAway_halfDown, size, above]
    simp
  | halfEven =>
    refine (fracInc_eq_ite (by decide) ?_).symm
    rw [movesAway_halfEven, size, above, tie, Int.odd_iff]
    simp
  | unnecessary => exact (fracInc_unnecessary hne).symm

end

section
variable (e : Engine) (s : State)

/-- The operands of RINCD as the spec's bit fields of the number in `B` (R79). -/
theorem opDigit_eq_mod : s.opDigit = s.b.toNat % 16 := by
  simp [State.opDigit, BitVec.extractLsb'_toNat]

theorem opTrailing_eq_decide : s.opTrailing = decide (s.b.toNat / 16 % 2 = 1) :=
  Nat.testBit_eq_decide_div_mod_eq

theorem opNegative_eq_decide : s.opNegative = decide (s.b.toNat / 32 % 2 = 1) :=
  Nat.testBit_eq_decide_div_mod_eq

theorem exec_rincd_of_invalid (h : 9 < s.opDigit) :
    exec (.rincd e) s = .next { s with status := 0x41#32 } := by
  rw [← State.raise_invalidArgument_eq]
  exact if_pos h

theorem exec_rincd_of_valid (hdg : s.opDigit ≤ 9) {f : ℝ}
    (h : DigitFraction s.opDigit s.opTrailing f) :
    exec (.rincd e) s = s.finishFit (fracInc e.rm s.opA (signedFraction s.opNegative f)) := by
  rw [← incd_eq_fracInc h]
  exact if_neg (not_lt.mpr hdg)

end

/-- Settles O29: for a decimal digit RINCD writes back the increment of any fraction its operands can
stand for. -/
theorem rincdSelectsIncrement : Obligations.RincdSelectsIncrement := by
  intro e s
  have trailing : s.opTrailing = false ↔ s.b.toNat / 16 % 2 = 0 := by
    rw [opTrailing_eq_decide, decide_eq_false_iff_not]
    omega
  have negative : s.opNegative = true ↔ s.b.toNat / 32 % 2 = 1 := by
    rw [opNegative_eq_decide, decide_eq_true_iff]
  simp only [← opDigit_eq_mod, ← trailing, ← negative]
  refine ⟨rfl, exec_rincd_of_invalid e s, fun hdg f q low high exact_iff hq => ?_⟩
  have digits : DigitFraction s.opDigit s.opTrailing f := ⟨low, high, exact_iff⟩
  obtain rfl : q = signedFraction s.opNegative f := hq
  have size := abs_signedFraction (ng := s.opNegative) digits.nonneg
  rw [exec_rincd_of_valid e s hdg digits]
  refine ⟨fun i hi noOddTie => ?_, fun mode tie odd => ?_, fun mode hf => ?_⟩
  · rw [← size] at noOddTie
    exact finishFit_fracInc_of_roundsTo s (size.trans_lt (digits.lt_one hdg)) hi noOddTie
  · have pos : 0 < f := by linarith
    rw [mode, finishFit_fracInc_of_oddTie s (size.trans tie) odd, stepAway_signedFraction pos]
  · rw [mode]
    exact finishFit_fracInc_unnecessary s (signedFraction_eq_zero_iff.not.mpr hf)

end Sys2Proof.Machine
end

section
/-! SUPPORT. The overflow policy in numbers (spec/41_rounding_and_overflow.md R75). -/

namespace Sys2Proof.Machine

theorem fits64_iff_pow (x : ℤ) : fits64 x = true ↔ -2 ^ 63 ≤ x ∧ x ≤ 2 ^ 63 - 1 := fits64_iff x

theorem toNat_wrap64 (x : ℤ) : ((wrap64 x).toNat : ℤ) = x % 2 ^ 64 := by
  rw [wrap64, BitVec.toNat_ofInt]
  omega

/-- Settles O27: the range test of `POLICY` is the bounds of 64 bits, and wrapping loses nothing within
them. -/
theorem policyWrapsOrRaises : Obligations.PolicyWrapsOrRaises := by
  intro ov x
  refine ⟨fun inside => ?_, fun outside => ?_⟩
  · have fits := (fits64_iff_pow x).mpr inside
    exact ⟨policy_of_fits fits, s64_wrap64 fits⟩
  · have noFit : fits64 x = false := by
      rw [← Bool.not_eq_true, fits64_iff_pow]
      omega
    refine ⟨?_, ?_⟩
    · rintro rfl
      exact policy_checked noFit
    · rintro rfl
      rw [policy_unchecked, noFit]
      exact ⟨rfl, toNat_wrap64 x⟩

end Sys2Proof.Machine
end

section
/-! SUPPORT. The wide accumulator (spec/10_state.md R12): its pattern as a number and as two halves, and
what a command that leaves its result in `W` writes (spec/42_wideint.md R85). -/

namespace Sys2Proof.Machine

/-! ### A pattern read as a number -/

theorem s64_bounds (v : Word) : -2 ^ 63 ≤ s64 v ∧ s64 v < 2 ^ 63 :=
  ⟨BitVec.le_toInt v, BitVec.toInt_lt⟩

theorem s128_bounds (w : Wide) : -2 ^ 127 ≤ s128 w ∧ s128 w < 2 ^ 127 :=
  ⟨BitVec.le_toInt w, BitVec.toInt_lt⟩

/-- Wrapping to 128 bits loses nothing in range (spec/00_scope.md R8). -/
theorem s128_wrap128 {n : Int} (lower : -2 ^ 127 ≤ n) (upper : n < 2 ^ 127) : s128 (wrap128 n) = n :=
  BitVec.toInt_ofInt_eq_self (by decide) lower upper

theorem s64_eq_zero_iff {v : Word} : s64 v = 0 ↔ v = 0#64 := BitVec.toInt_inj (y := 0#64)

theorem getLsbD_63_eq_neg (v : Word) : v.getLsbD 63 = decide (s64 v < 0) := by
  rw [s64, ← BitVec.msb_eq_toInt, BitVec.msb_eq_getLsbD_last]

/-- `s128({WH, WL})`: the high half signed, the low half unsigned. -/
theorem s128_append (hi lo : Word) : s128 (hi ++ lo : BitVec (64 + 64)) = 2 ^ 64 * s64 hi + lo.toNat :=
  BitVec.toInt_append

theorem s128_append_neg_iff (hi lo : Word) : s128 (hi ++ lo : BitVec (64 + 64)) < 0 ↔ s64 hi < 0 := by
  rw [s128_append]
  omega

/-! ### The halves of a wrapped number -/

theorem wrap64_emod (n : Int) : wrap64 (n % 2 ^ 64) = wrap64 n := by
  apply BitVec.eq_of_toInt_eq
  rw [wrap64, wrap64, BitVec.toInt_ofInt, BitVec.toInt_ofInt]
  exact Int.emod_bmod n (2 ^ 64)

theorem append_eq_wrap128 (n : Int) :
    (wrap64 (n / 2 ^ 64) ++ wrap64 n : BitVec (64 + 64)) = wrap128 n := by
  have halves : ((wrap128 n).extractLsb' 64 64 ++ (wrap128 n).extractLsb' 0 64 : BitVec (64 + 64)) =
      wrap128 n := BitVec.extractLsb'_append_extractLsb'
  rwa [wrap128_low, wrap128_high, wrap64_emod, wrap64_emod] at halves

section
variable (s : State)

@[simp] theorem State.wide_succeedWide (w : Wide) : (s.succeedWide w).wide = w :=
  BitVec.extractLsb'_append_extractLsb'

/-- The accumulator written with a number, half by half. -/
theorem State.withWide_wrap128 (n : Int) :
    s.withWide (wrap128 n) =
      { s with wl := BitVec.ofInt 64 (n % 2 ^ 64), wh := BitVec.ofInt 64 (n / 2 ^ 64) } := by
  rw [State.withWide, wrap128_low, wrap128_high, wrap64_emod (n / 2 ^ 64)]
  rfl

/-! ### The success of a wide command (R85) -/

theorem statusOk_not (fits : Bool) : statusOk (!fits) = if fits then 0x00#32 else 0x02#32 := by
  cases fits <;> decide

@[simp] theorem statusV_statusOk (v : Bool) : statusV (statusOk v) = v := by
  cases v <;> decide

/-- A wide success writes `WL`, `WH` and `STATUS` and nothing else. -/
theorem State.succeedWide_frame (w : Wide) :
    s.succeedWide w = { s with
      wl := (s.succeedWide w).wl
      wh := (s.succeedWide w).wh
      status := if fits64 (s128 w) then 0x00#32 else 0x02#32 } := by
  rw [← statusOk_not]
  rfl

end

end Sys2Proof.Machine
end

section
/-! SUPPORT. The wide sum, product and negation (spec/42_wideint.md R86, R87, R89), and the two circuits
that form the first two. -/

namespace Sys2Proof.Machine

section
variable (e : Engine) (s : State)

theorem exec_add64w : exec (.add64w e) s = .next (s.succeedWide (wrap128 (s.opA + s.opB))) := rfl

theorem exec_mul64 : exec (.mul64 e) s = .next (s.succeedWide (wrap128 (s.opA * s.opB))) := rfl

theorem exec_wneg : exec (.wneg e) s = .next (s.succeedWide (wrap128 (0 - s.opW))) := rfl

end

/-! ### The sign-bit circuit (R86) -/

/-- The word of 64 copies of the sign bit is the high half of a number of 65 bits. -/
theorem signFill_eq_wrap64 {n : Int} (lower : -2 ^ 64 ≤ n) (upper : n < 2 ^ 64) :
    (if n < 0 then 0xFFFFFFFFFFFFFFFF#64 else 0#64) = wrap64 (n / 2 ^ 64) := by
  split
  · rw [show n / 2 ^ 64 = -1 by omega]
    rfl
  · rw [show n / 2 ^ 64 = 0 by omega]
    rfl

section
variable (a b : Word)

theorem add_s64_bounds : -2 ^ 64 ≤ s64 a + s64 b ∧ s64 a + s64 b < 2 ^ 64 := by
  obtain ⟨la, ua⟩ := s64_bounds a
  obtain ⟨lb, ub⟩ := s64_bounds b
  omega

/-- Where the exact sum does not fit, the operands share a sign and the low word has the other. -/
theorem s64_add_cases :
    fits64 (s64 a + s64 b) = true ∧ s64 (a + b) = s64 a + s64 b ∨
    fits64 (s64 a + s64 b) = false ∧ s64 a < 0 ∧ s64 b < 0 ∧ ¬ s64 (a + b) < 0 ∨
    fits64 (s64 a + s64 b) = false ∧ ¬ s64 a < 0 ∧ ¬ s64 b < 0 ∧ s64 (a + b) < 0 := by
  obtain ⟨la, ua⟩ := s64_bounds a
  obtain ⟨lb, ub⟩ := s64_bounds b
  have low : s64 (a + b) = (s64 a + s64 b).bmod (2 ^ 64) := BitVec.toInt_add a b
  rw [low, fits64_iff, fits64_false_iff, i64Min, i64Max, Int.bmod_def]
  omega

/-- The circuit's overflow flag is the range test. -/
theorem signOverflow_eq_not_fits :
    (decide (s64 a < 0) == decide (s64 b < 0) && decide (s64 (a + b) < 0) != decide (s64 a < 0)) =
      !fits64 (s64 a + s64 b) := by
  obtain ⟨fits, low⟩ | ⟨fits, ha, hb, low⟩ | ⟨fits, ha, hb, low⟩ := s64_add_cases a b
  · have sameSign : (s64 a < 0 ↔ s64 b < 0) → (s64 a + s64 b < 0 ↔ s64 a < 0) := by omega
    simpa [fits, low] using sameSign
  · simp only [fits, ha, hb, low, decide_true, decide_false]
    rfl
  · simp only [fits, ha, hb, low, decide_true, decide_false]
    rfl

/-- The top bit the circuit picks is the sign of the exact sum. -/
theorem pickedSign_eq_neg :
    (if !fits64 (s64 a + s64 b) then decide (s64 a < 0) else decide (s64 (a + b) < 0)) =
      decide (s64 a + s64 b < 0) := by
  obtain ⟨fits, low⟩ | ⟨fits, ha, hb, -⟩ | ⟨fits, ha, hb, -⟩ := s64_add_cases a b
  · rw [fits, low]
    rfl
  · have sum : s64 a + s64 b < 0 := by omega
    simp [fits, ha, sum]
  · have sum : ¬ s64 a + s64 b < 0 := by omega
    simp only [fits, ha, sum, Bool.not_false, if_true]

theorem addCircuit_eq :
    addCircuit a b = (wrap128 (s64 a + s64 b), !fits64 (s64 a + s64 b)) := by
  obtain ⟨lower, upper⟩ := add_s64_bounds a b
  have low : a + b = wrap64 (s64 a + s64 b) := by
    rw [wrap64, BitVec.ofInt_add, s64, s64, BitVec.ofInt_toInt, BitVec.ofInt_toInt]
  have wide : ((if s64 a + s64 b < 0 then 0xFFFFFFFFFFFFFFFF#64 else 0#64) ++ (a + b) :
      BitVec (64 + 64)) = wrap128 (s64 a + s64 b) := by
    rw [signFill_eq_wrap64 lower upper, low, append_eq_wrap128]
  simp only [addCircuit, getLsbD_63_eq_neg, signOverflow_eq_not_fits, pickedSign_eq_neg,
    decide_eq_true_eq, wide]

/-! ### The partial products (R87) -/

/-- The exact product of two 64-bit operands fits 128 bits. -/
theorem mul_s64_bounds : -2 ^ 127 ≤ s64 a * s64 b ∧ s64 a * s64 b < 2 ^ 127 := by
  have ha : |s64 a| ≤ 2 ^ 63 := abs_le.mpr ⟨(s64_bounds a).1, (s64_bounds a).2.le⟩
  have hb : |s64 b| ≤ 2 ^ 63 := abs_le.mpr ⟨(s64_bounds b).1, (s64_bounds b).2.le⟩
  have product : |s64 a * s64 b| ≤ 2 ^ 63 * 2 ^ 63 := by
    rw [abs_mul]
    exact mul_le_mul ha hb (abs_nonneg _) (by norm_num)
  obtain ⟨lower, upper⟩ := abs_le.mp product
  omega

theorem s64_eq_halves (v : Word) :
    s64 v = s32 (v.extractLsb' 32 32) * 2 ^ 32 + (v.extractLsb' 0 32).toNat := by
  have halves : (v.extractLsb' 32 32 ++ v.extractLsb' 0 32 : BitVec (32 + 32)) = v :=
    BitVec.extractLsb'_append_extractLsb'
  calc s64 v = (v.extractLsb' 32 32 ++ v.extractLsb' 0 32 : BitVec (32 + 32)).toInt := by rw [halves, s64]
    _ = 2 ^ 32 * s32 (v.extractLsb' 32 32) + (v.extractLsb' 0 32).toNat := BitVec.toInt_append
    _ = _ := by rw [mul_comm]

theorem mulPartialProducts_eq : mulPartialProducts a b = s64 a * s64 b := by
  rw [s64_eq_halves a, s64_eq_halves b, mulPartialProducts]
  ring

end

/-! ### The commands -/

/-- Settles O34: the sum is within 128 bits, and the circuit picks the exact sum's sign and flags its
range. -/
theorem add64wExact : Obligations.Add64wExact := by
  intro e s
  obtain ⟨lower, upper⟩ := add_s64_bounds s.a s.b
  have exact : s128 (wrap128 (s.opA + s.opB)) = s.opA + s.opB :=
    s128_wrap128 (lower.trans' (by norm_num)) (upper.trans (by norm_num))
  have frame := s.succeedWide_frame (wrap128 (s.opA + s.opB))
  rw [exact] at frame
  refine ⟨rfl, _, exec_add64w e s, ?_, frame, ?_⟩
  · rw [State.wide_succeedWide, exact]
  · rw [State.wide_succeedWide, State.succeedWide_status, statusV_statusOk, exact, addCircuit_eq]

/-- Settles O35: the product of two 64-bit operands is within 128 bits, and the partial products are it by
the distributive law. -/
theorem mul64Exact : Obligations.Mul64Exact := by
  intro e s
  obtain ⟨lower, upper⟩ := mul_s64_bounds s.a s.b
  have exact : s128 (wrap128 (s.opA * s.opB)) = s.opA * s.opB := s128_wrap128 lower upper
  have frame := s.succeedWide_frame (wrap128 (s.opA * s.opB))
  rw [exact] at frame
  refine ⟨rfl, _, exec_mul64 e s, ?_, frame, ?_⟩
  · rw [State.wide_succeedWide, exact]
  · rw [State.wide_succeedWide, exact, mulPartialProducts_eq]

/-- Negating the number and wrapping is negating the pattern. -/
theorem wrap128_zero_sub (w : Wide) : wrap128 (0 - s128 w) = 0#128 - w := by
  rw [wrap128, zero_sub, BitVec.ofInt_neg, s128, BitVec.ofInt_toInt, BitVec.zero_sub]

/-- Settles O38: the new accumulator is the negated pattern, of which `V` is the range test. -/
theorem wnegNegates : Obligations.WnegNegates := by
  intro e s
  refine ⟨rfl, _, exec_wneg e s, ?_, ?_⟩
  · rw [State.wide_succeedWide, wrap128_zero_sub]
  · rw [State.wide_succeedWide]
    exact s.succeedWide_frame _

end Sys2Proof.Machine
end

section
/-! SUPPORT. The wide division (spec/42_wideint.md R88): truncating division fixed by its remainder, and
the shift-and-subtract loop on the magnitudes. -/

namespace Sys2Proof.Machine

/-! ### The loop -/

section
variable {un ud : Nat}

/-- One shift: the dividend's next bit enters below the remainder. -/
theorem shiftIn_testBit (ur k : Nat) :
    ur * 2 ^ (k + 1) + un % 2 ^ (k + 1) = (2 * ur + (un.testBit k).toNat) * 2 ^ k + un % 2 ^ k := by
  rw [Nat.toNat_testBit, Nat.mod_pow_succ]
  ring

/-- With a partial remainder below the divisor, the iterations left divide what the remainder and the
dividend's bits below `k` spell. -/
theorem longDivFrom_eq : ∀ k uq ur : Nat, ur < ud → longDivFrom un ud k uq ur =
    (uq + (ur * 2 ^ k + un % 2 ^ k) / ud, (ur * 2 ^ k + un % 2 ^ k) % ud)
  | 0, uq, ur, small => by
    simp [longDivFrom, Nat.mod_one, Nat.div_eq_of_lt small, Nat.mod_eq_of_lt small]
  | k + 1, uq, ur, small => by
    have positive : 0 < ud := Nat.zero_lt_of_lt small
    have bit := Bool.toNat_le (un.testBit k)
    rw [longDivFrom, shiftIn_testBit]
    generalize shifted : 2 * ur + (un.testBit k).toNat = sh
    split
    case isTrue fits =>
      have taken : sh * 2 ^ k + un % 2 ^ k = (sh - ud) * 2 ^ k + un % 2 ^ k + ud * 2 ^ k := by
        rw [Nat.sub_mul, Nat.add_right_comm, Nat.sub_add_cancel (Nat.mul_le_mul_right _ fits)]
      rw [longDivFrom_eq k _ _ (by omega), taken, Nat.add_mul_div_left _ _ positive,
        Nat.add_mul_mod_self_left]
      congr 1
      omega
    case isFalse larger => exact longDivFrom_eq k _ _ (by omega)

/-- The 128 iterations divide every magnitude of 128 bits. -/
theorem longDivFrom_128 (hd : 0 < ud) (hn : un < 2 ^ 128) :
    longDivFrom un ud 128 0 0 = (un / ud, un % ud) := by
  rw [longDivFrom_eq 128 0 0 hd, Nat.mod_eq_of_lt hn, Nat.zero_mul, Nat.zero_add, Nat.zero_add]

end

/-! ### Magnitudes and signs -/

section
variable (n d : Int)

/-- The quotient's sign is the exclusive or of the operands' signs. -/
theorem tdiv_eq_signed_magnitude :
    n.tdiv d = if decide (n < 0) != decide (d < 0) then -((n.natAbs / d.natAbs : Nat) : Int)
      else ((n.natAbs / d.natAbs : Nat) : Int) := by
  cases n with
  | ofNat m =>
    cases d with
    | ofNat k => simp [Int.tdiv, (Int.natCast_nonneg m).not_gt, (Int.natCast_nonneg k).not_gt]
    | negSucc k => simp [Int.tdiv]
  | negSucc m => cases d <;> simp [Int.tdiv]

/-- The remainder has the dividend's sign. -/
theorem tmod_eq_signed_magnitude :
    n.tmod d = if n < 0 then -((n.natAbs % d.natAbs : Nat) : Int)
      else ((n.natAbs % d.natAbs : Nat) : Int) := by
  cases n with
  | ofNat m => cases d <;> simp [Int.tmod]
  | negSucc m => cases d <;> simp [Int.tmod]

theorem abs_tdiv_le : |n.tdiv d| ≤ |n| := by
  rw [Int.abs_eq_natAbs, Int.abs_eq_natAbs, Int.natAbs_tdiv]
  exact_mod_cast Nat.div_le_self _ _

end

section
variable {n d : Int}

/-- The document's divider forms the truncated quotient modulo `2^128` and its remainder. -/
theorem longDivide_eq (hd : d ≠ 0) (hn : n.natAbs < 2 ^ 128) :
    longDivide n d = (wrap128 (n.tdiv d), n.tmod d) := by
  rw [longDivide, longDivFrom_128 (Int.natAbs_pos.mpr hd) hn, tdiv_eq_signed_magnitude,
    tmod_eq_signed_magnitude]
  congr 1
  split
  · rw [wrap128, BitVec.ofInt_neg, BitVec.ofInt_natCast, BitVec.zero_sub]
  · rw [wrap128, BitVec.ofInt_natCast]

/-- For a divisor of either sign, the quotient truncated toward zero and its remainder are the only pair
with a remainder smaller than the divisor that is zero or has the dividend's sign. -/
theorem tdiv_tmod_eq_of_remainder {q r : Int} (split : n = d * q + r) (small : |r| < |d|)
    (pos : 0 < n → 0 ≤ r) (nonpos : n ≤ 0 → r ≤ 0) : n.tdiv d = q ∧ n.tmod d = r := by
  have hd : d ≠ 0 := abs_pos.mp ((abs_nonneg r).trans_lt small)
  rw [Int.abs_eq_natAbs d] at small
  obtain ⟨above, below⟩ := abs_lt.mp small
  obtain hn | hn := lt_or_ge 0 n
  · exact (Int.tdiv_tmod_unique hn.le hd).mpr ⟨by omega, pos hn, below⟩
  · exact (Int.tdiv_tmod_unique' hn hd).mpr ⟨by omega, above, nonpos hn⟩

end

/-! ### The command -/

/-- The one quotient that wraps does not fit either way: `2^127` reads as `-2^127` once wrapped. -/
theorem fits64_s128_wrap128 {n : Int} (h : |n| ≤ 2 ^ 127) : fits64 (s128 (wrap128 n)) = fits64 n := by
  obtain ⟨lower, upper⟩ := abs_le.mp h
  obtain below | rfl := upper.lt_or_eq
  · rw [s128_wrap128 lower below]
  · decide

section
variable (e : Engine) (s : State)

theorem exec_divw_zero (h : s.b = 0#64) : exec (.divw e) s = .next (s.raise .divisionByZero) :=
  if_pos (s64_eq_zero_iff.mpr h)

theorem exec_divw_nonzero (h : s.b ≠ 0#64) :
    exec (.divw e) s = .next { s.withWide (wrap128 (s.opW.tdiv s.opB)) with
      r := wrap64 (s.opW.tmod s.opB)
      status := if fits64 (s.opW.tdiv s.opB) then 0x00#32 else 0x02#32 } := by
  have size : |s.opW.tdiv s.opB| ≤ 2 ^ 127 :=
    (abs_tdiv_le _ _).trans (abs_le.mpr ⟨(s128_bounds s.wide).1, (s128_bounds s.wide).2.le⟩)
  rw [← statusOk_not, ← fits64_s128_wrap128 size]
  exact if_neg (mt s64_eq_zero_iff.mp h)

end

/-- Settles O37: the equation, the bound and the sign fix quotient and remainder, which the command and
the divider both give. -/
theorem divwTruncates : Obligations.DivwTruncates := by
  intro e s
  refine ⟨rfl, exec_divw_zero e s, fun nonzero q r split small pos nonpos => ?_⟩
  obtain ⟨quotient, remainder⟩ := tdiv_tmod_eq_of_remainder split small pos nonpos
  have magnitude : (s128 s.wide).natAbs < 2 ^ 128 := by
    obtain ⟨lower, upper⟩ := s128_bounds s.wide
    omega
  refine ⟨?_, ?_⟩
  · rw [exec_divw_nonzero e s nonzero, quotient, remainder, State.withWide_wrap128]
  · rw [longDivide_eq (mt s64_eq_zero_iff.mp nonzero) magnitude, quotient, remainder]

end Sys2Proof.Machine
end

section
/-! SUPPORT. The predicates of the wide accumulator (spec/42_wideint.md R90, R91, R92). -/

namespace Sys2Proof.Machine

section
variable (e : Engine) (s : State)

theorem exec_wfits :
    exec (.wfits e) s =
      .next { s with r := if fits64 s.opW then 1#64 else 0#64, status := 0x00#32 } := by
  rw [← State.succeed_false_eq]
  rfl

theorem exec_wisneg :
    exec (.wisneg e) s =
      .next { s with r := if s.opW < 0 then 1#64 else 0#64, status := 0x00#32 } := by
  rw [← State.succeed_false_eq]
  rfl

theorem exec_wsignum :
    exec (.wsignum e) s = .next { s with r := wrap64 s.opW.sign, status := 0x00#32 } := by
  rw [← State.succeed_false_eq]
  rfl

/-- A number of 128 bits fits 64 bits where its high half repeats the sign bit of its low half. -/
theorem wideFitsPattern_iff : wideFitsPattern s = true ↔ i64Min ≤ s.opW ∧ s.opW ≤ i64Max := by
  have number : s.opW = 2 ^ 64 * s64 s.wh + s.wl.toNat := s128_append s.wh s.wl
  have zeros : s.wh = 0#64 ↔ s64 s.wh = 0 := s64_eq_zero_iff.symm
  have ones : s.wh = 0xFFFFFFFFFFFFFFFF#64 ↔ s64 s.wh = -1 :=
    BitVec.toInt_inj (y := 0xFFFFFFFFFFFFFFFF#64).symm
  have lowSign : s64 s.wl < 0 ↔ 2 ^ 64 ≤ 2 * s.wl.toNat := BitVec.toInt_neg_iff
  have lowSize := s.wl.isLt
  simp only [wideFitsPattern, Bool.or_eq_true, Bool.and_eq_true, beq_iff_eq, Bool.not_eq_true',
    getLsbD_63_eq_neg, decide_eq_true_eq, decide_eq_false_iff_not, zeros, ones, lowSign]
  rw [number, i64Min, i64Max]
  omega

theorem getLsbD_63_wh_iff : s.wh.getLsbD 63 = true ↔ s.opW < 0 := by
  rw [getLsbD_63_eq_neg, decide_eq_true_iff, State.opW, State.wide, s128_append_neg_iff]

end

theorem wrap64_sign (n : Int) :
    wrap64 n.sign = if n < 0 then 0xFFFFFFFFFFFFFFFF#64 else if n = 0 then 0#64 else 1#64 := by
  obtain hn | rfl | hn := lt_trichotomy n 0
  · rw [if_pos hn, Int.sign_eq_neg_one_of_neg hn]
    rfl
  · rfl
  · rw [if_neg hn.not_gt, if_neg hn.ne', Int.sign_eq_one_of_pos hn]
    rfl

/-- Settles O39: each predicate is the test of the number, and the two pattern tests read the halves. -/
theorem widePredicates : Obligations.WidePredicates := by
  intro e s
  refine ⟨rfl, rfl, rfl, ?_, wideFitsPattern_iff s, exec_wisneg e s, getLsbD_63_wh_iff s, ?_⟩
  · simp only [exec_wfits, fits64_iff]
  · rw [exec_wsignum, wrap64_sign]

end Sys2Proof.Machine
end

section
/-! SUPPORT. The integer square root of the accumulator (spec/42_wideint.md R93). -/

namespace Sys2Proof.Machine

section
variable (e : Engine) (s : State)

theorem exec_isqrt_of_neg (h : s.opW < 0) : exec (.isqrt e) s = .next (s.raise .invalidArgument) :=
  if_pos h

theorem exec_isqrt_of_nonneg (h : 0 ≤ s.opW) :
    exec (.isqrt e) s = .next { s.withWide (wrap128 (s.opW - isqrt s.opW.toNat * isqrt s.opW.toNat)) with
      r := BitVec.ofNat 64 (isqrt s.opW.toNat)
      status := if isqrt s.opW.toNat < 2 ^ 63 then 0x00#32 else 0x02#32 } := by
  have flag : statusOk (decide (2 ^ 63 ≤ isqrt s.opW.toNat)) =
      if isqrt s.opW.toNat < 2 ^ 63 then 0x00#32 else 0x02#32 := by
    split
    case isTrue small => rw [decide_eq_false small.not_ge, statusOk_false]
    case isFalse large => rw [decide_eq_true (not_lt.mp large), statusOk_true]
  have radicand : (s.opW.toNat : Int) = s.opW := Int.toNat_of_nonneg h
  have taken : exec (.isqrt e) s = .next
      { s.withWide (wrap128 (s.opW.toNat - isqrt s.opW.toNat * isqrt s.opW.toNat)) with
        r := wrap64 (isqrt s.opW.toNat)
        status := statusOk (decide (2 ^ 63 ≤ isqrt s.opW.toNat)) } := if_neg h.not_gt
  rw [taken, flag, radicand, wrap64, BitVec.ofInt_natCast]

/-- The two bounds of R93 fix the root. -/
theorem isqrt_opW_eq {t : ℕ} (lower : (t : ℤ) * t ≤ s.opW) (upper : s.opW < ((t : ℤ) + 1) * (t + 1)) :
    isqrt s.opW.toNat = t := by
  have radicand : (s.opW.toNat : Int) = s.opW := Int.toNat_of_nonneg ((mul_self_nonneg _).trans lower)
  have small : s.opW.toNat < 2 ^ 128 := by
    have upper128 : s.opW < 2 ^ 127 := (s128_bounds s.wide).2
    omega
  rw [← radicand] at lower upper
  exact isqrt_eq small (by exact_mod_cast lower) (by exact_mod_cast upper)

end

/-- Settles O40: the two bounds fix the root, and the remainder follows from it. -/
theorem isqrtRootRemainder : Obligations.IsqrtRootRemainder := by
  intro e s
  refine ⟨rfl, exec_isqrt_of_neg e s, fun t lower upper => ?_⟩
  have nonneg : 0 ≤ s.opW := (mul_self_nonneg _).trans lower
  rw [exec_isqrt_of_nonneg e s nonneg, isqrt_opW_eq s lower upper, State.withWide_wrap128]

end Sys2Proof.Machine
end

section
/-! SUPPORT. The split multiply and the split divide (spec/43_engine_add_mul.md R110,
spec/44_engine_div_sqrt_pow.md R125): truncating division passes over a multiple of the divisor that lies
on the side of the rest. -/

namespace Sys2Proof.Machine

/-- The multiple of the divisor that a truncating division takes out and the remainder it leaves have no
opposite signs. -/
theorem tdiv_mul_divisor_same_side_tmod (n : ℤ) {d : ℤ} (hd : d ≠ 0) :
    0 ≤ n.tdiv d * d * n.tmod d := by
  have hd' : (d : ℝ) ≠ 0 := Int.cast_ne_zero.mpr hd
  have square : ((n.tdiv d : ℝ) * ((n.tmod d : ℝ) / d)) * (d * d) = n.tdiv d * d * n.tmod d := by
    field_simp
  have nonneg := mul_nonneg (tdiv_same_side_tmod n d) (mul_self_nonneg (d : ℝ))
  rw [square] at nonneg
  exact_mod_cast nonneg

/-- A multiple of the divisor moves through a truncating division where it lies on the side of the rest;
across zero it would not, as the quotient turns round there. -/
theorem tdiv_tmod_mul_add {k d m : ℤ} (hd : d ≠ 0) (side : 0 ≤ k * d * m) :
    (k * d + m).tdiv d = k + m.tdiv d ∧ (k * d + m).tmod d = m.tmod d := by
  have split : k * d + m = d * (k + m.tdiv d) + m.tmod d := by
    linarith [Int.mul_tdiv_add_tmod m d]
  refine tdiv_tmod_eq_of_remainder split (abs_tmod_lt m hd) (fun pos => ?_) (fun nonpos => ?_)
  · refine Int.tmod_nonneg d (le_of_not_gt fun hm => ?_)
    have : k * d ≤ 0 := nonpos_of_mul_nonneg_left side hm
    omega
  · obtain hm | hm := le_or_gt m 0
    · rw [← neg_nonneg, ← Int.neg_tmod]
      exact Int.tmod_nonneg d (neg_nonneg.mpr hm)
    · have : 0 ≤ k * d := nonneg_of_mul_nonneg_left side hm
      omega

section
variable {a b f : ℤ}

theorem splitMultiply_eq (hf : 0 < f) : splitMultiply a b f = ((a * b).tdiv f, (a * b).tmod f) := by
  have partsA := Int.mul_tdiv_add_tmod a f
  have partsB := Int.mul_tdiv_add_tmod b f
  have sideA := tdiv_mul_divisor_same_side_tmod a hf.ne'
  have sideB := tdiv_mul_divisor_same_side_tmod b hf.ne'
  rw [splitMultiply]
  generalize a.tdiv f = ai at *
  generalize a.tmod f = af at *
  generalize b.tdiv f = bi at *
  generalize b.tmod f = bf at *
  have product : a * b = (ai * bi * f + ai * bf + af * bi) * f + af * bf := by
    rw [← partsA, ← partsB]
    ring
  have side : 0 ≤ (ai * bi * f + ai * bf + af * bi) * f * (af * bf) := by
    have terms : (ai * bi * f + ai * bf + af * bi) * f * (af * bf) =
        (ai * f * af) * (bi * f * bf) + (ai * f * af) * (bf * bf) + (bi * f * bf) * (af * af) := by
      ring
    rw [terms]
    exact add_nonneg (add_nonneg (mul_nonneg sideA sideB) (mul_nonneg sideA (mul_self_nonneg bf)))
      (mul_nonneg sideB (mul_self_nonneg af))
  obtain ⟨quotient, remainder⟩ := tdiv_tmod_mul_add hf.ne' side
  rw [product, quotient, remainder]

theorem splitDivide_eq (hb : b ≠ 0) : splitDivide a b f = ((a * f).tdiv b, (a * f).tmod b) := by
  have scaled : a * f = a.tdiv b * f * b + a.tmod b * f := by
    linear_combination -f * Int.mul_tdiv_add_tmod a b
  have side : 0 ≤ a.tdiv b * f * b * (a.tmod b * f) := by
    have square : a.tdiv b * f * b * (a.tmod b * f) = (a.tdiv b * b * a.tmod b) * (f * f) := by ring
    rw [square]
    exact mul_nonneg (tdiv_mul_divisor_same_side_tmod a hb) (mul_self_nonneg f)
  obtain ⟨quotient, remainder⟩ := tdiv_tmod_mul_add hb side
  rw [splitDivide, scaled, quotient, remainder]

end

/-- Settles O36: the parts taken out before the last division lie on the side of what it divides. -/
theorem splitFormsAgree : Obligations.SplitFormsAgree :=
  ⟨fun _ _ _ hf => splitMultiply_eq hf, fun _ _ _ hb _ => splitDivide_eq hb⟩

end Sys2Proof.Machine
end

section
/-! SUPPORT. How a command ends whose value is exact or rounded once (spec/43_engine_add_mul.md R99,
spec/41_rounding_and_overflow.md R74 to R76): from a value function tied to the real number it rounds, to
the outcomes the statements name. -/

namespace Sys2Proof.Machine

/-! ### Value functions that round a real number -/

/-- `res` is the real number `q` rounded under the mode, or the fault where the mode allows no
rounding. -/
structure IsRounding (rm : RoundingMode) (q : ℝ) (res : Except Cause ℤ) : Prop where
  ok : ∀ x : ℤ, RoundsTo rm q x → res = .ok x
  inexact : rm = .unnecessary → (∀ x : ℤ, q ≠ x) → res = .error .roundingRequired

section
variable (rm : RoundingMode)

theorem roundq_isRounding (n : ℤ) {d : ℤ} (hd : d ≠ 0) :
    IsRounding rm ((n : ℝ) / d) (roundq rm n d) := by
  obtain ⟨ok, fault⟩ := roundqIsReference rm n d hd
  exact ⟨fun x => (ok x).mpr, fun mode inexact => (fault _).mpr ⟨rfl, mode, inexact⟩⟩

/-- An integer is its own rounding in every mode. -/
theorem isRounding_intCast (n : ℤ) : IsRounding rm n (.ok n) := by
  simpa only [roundq_one, Int.cast_one, div_one] using roundq_isRounding rm n one_ne_zero

/-- The power rule of R105 with the exponent of either sign. -/
theorem scaleByPower_isRounding {base : ℕ} (hbase : base ≠ 0) (a n : ℤ) :
    IsRounding rm ((a : ℝ) * (base : ℝ) ^ n) (scaleByPower base rm a n) := by
  have power (k : ℕ) : (((base ^ k : ℕ) : ℤ) : ℝ) = (base : ℝ) ^ (k : ℤ) := by push_cast; rfl
  rw [scaleByPower]
  split
  case isTrue nonneg =>
    have product := isRounding_intCast rm (a * ((base ^ n.toNat : ℕ) : ℤ))
    rwa [Int.cast_mul, power, Int.toNat_of_nonneg nonneg] at product
  case isFalse negative =>
    have divisor : ((base ^ (-n).toNat : ℕ) : ℤ) ≠ 0 := by exact_mod_cast pow_ne_zero _ hbase
    have quotient := roundq_isRounding rm a divisor
    rwa [power, Int.toNat_of_nonneg (by omega), zpow_neg, div_inv_eq_mul] at quotient

end

/-! ### From the value to the outcome -/

section
variable {i : Instr} {s : State} {q : ℝ}

theorem exactCommand_of_policy {x : ℤ} (h : exec i s = s.finish (policy i.engine.ov x)) :
    ExactCommand i x s := by
  refine ⟨fun completes => ?_, fun checked noFit => ?_⟩
  · have ok : policy i.engine.ov x = .ok (wrap64 x, !fits64 x) := by
      obtain unchecked | fits := completes
      · rw [unchecked, policy_unchecked]
      · rw [policy_of_fits fits, fits, Bool.not_true]
    rw [h, ok, State.finish_ok, State.succeed_not_fits_eq]
  · rw [h, checked, policy_checked noFit, State.finish_error, State.raise, statusFault_overflow]

/-- Once rounded, the value is exact and goes through the policy; the rounding fault comes before it
(R76, spec/60_exceptions.md R147). -/
theorem roundedCommand_of_thenPolicy {res : Except Cause ℤ} (rounding : IsRounding i.engine.rm q res)
    (h : exec i s = s.finish (thenPolicy i.engine.ov res)) : RoundedCommand i q s := by
  have afterRounding (x : ℤ) (hx : RoundsTo i.engine.rm q x) : ExactCommand i x s :=
    exactCommand_of_policy (by rw [h, rounding.ok x hx, thenPolicy])
  refine ⟨fun x hx => (afterRounding x hx).1, fun x hx => (afterRounding x hx).2,
    fun mode inexact => ?_⟩
  rw [h, rounding.inexact mode inexact, thenPolicy, State.finish_error, State.raise,
    statusFault_roundingRequired]

theorem roundedFitCommand_of_finishFit {res : Except Cause ℤ}
    (rounding : IsRounding i.engine.rm q res)
    (fits : ∀ x : ℤ, RoundsTo i.engine.rm q x → fits64 x = true)
    (h : exec i s = s.finishFit res) : RoundedFitCommand i q s := by
  refine ⟨fun x hx => ⟨fits x hx, ?_⟩, fun mode inexact => ?_⟩
  · rw [h, rounding.ok x hx, State.finishFit_ok, State.succeed_false_eq]
  · rw [h, rounding.inexact mode inexact, State.finishFit_error, State.raise,
      statusFault_roundingRequired]

end

/-! ### Rounding stays within integer bounds -/

section
variable {rm : RoundingMode} {q : ℝ} {x : ℤ}

theorem abs_sub_of_same_side {y : ℝ} (side : 0 ≤ q * y) : |q - y| = |(|q| - |y|)| := by
  obtain ⟨hq, hy⟩ | ⟨hq, hy⟩ := mul_nonneg_iff.mp side
  · rw [abs_of_nonneg hq, abs_of_nonneg hy]
  · rw [abs_of_nonpos hq, abs_of_nonpos hy, neg_sub_neg, abs_sub_comm]

/-- No mode moves a value by one or more. -/
theorem abs_sub_lt_one_of_roundsTo (h : RoundsTo rm q x) : |q - x| < 1 := by
  have of_half {P : Prop} (near : |q - x| < 1 / 2 ∨ |q - x| = 1 / 2 ∧ P) : |q - x| < 1 := by
    obtain below | ⟨tie, -⟩ := near <;> linarith
  cases rm with
  | up | down =>
    obtain ⟨lower, upper, side⟩ := h
    rw [abs_sub_of_same_side side, abs_lt]
    constructor <;> linarith
  | ceiling | floor =>
    obtain ⟨lower, upper⟩ := h
    rw [abs_lt]
    constructor <;> linarith
  | halfUp | halfDown | halfEven => exact of_half h
  | unnecessary =>
    have unrounded : q = x := h
    simp [unrounded]

theorem roundsTo_bounds {lo hi : ℤ} (h : RoundsTo rm q x) (lower : (lo : ℝ) ≤ q) (upper : q ≤ hi) :
    lo ≤ x ∧ x ≤ hi := by
  obtain ⟨above, below⟩ := abs_lt.mp (abs_sub_lt_one_of_roundsTo h)
  have : lo < x + 1 := by exact_mod_cast (by linarith : (lo : ℝ) < x + 1)
  have : x < hi + 1 := by exact_mod_cast (by linarith : (x : ℝ) < hi + 1)
  omega

end

end Sys2Proof.Machine
end

section
/-! SUPPORT. The engine's additive and multiplicative commands and DIVP10 (spec/43_engine_add_mul.md R100
to R109, spec/44_engine_div_sqrt_pow.md R118). -/

namespace Sys2Proof.Machine

section
variable (e : Engine) (s : State)

theorem exec_nop : exec (.nop e) s = .next { s with status := 0#32 } := rfl

theorem exec_add : exec (.add e) s = s.finish (policy e.ov (s.opA + s.opB)) := rfl

theorem exec_sub : exec (.sub e) s = s.finish (policy e.ov (s.opA - s.opB)) := rfl

theorem exec_mull : exec (.mull e) s = s.finish (policy e.ov (s.opA * s.opB)) := rfl

theorem exec_abs : exec (.abs e) s = s.finish (policy e.ov |s.opA|) := by
  rw [Int.abs_eq_natAbs]
  rfl

theorem exec_neg : exec (.neg e) s = s.finish (policy e.ov (-s.opA)) := by
  rw [← zero_sub]
  rfl

theorem exec_mul :
    exec (.mul e) s =
      s.finish (thenPolicy e.ov (roundq e.rm (s.opA * s.opB) (scaleFactor e.scale))) := rfl

theorem exec_sqr :
    exec (.sqr e) s =
      s.finish (thenPolicy e.ov (roundq e.rm (s.opA * s.opA) (scaleFactor e.scale))) := rfl

theorem exec_avg : exec (.avg e) s = s.finishFit (roundq e.rm (s.opA + s.opB) 2) := rfl

/-- The cap on the exponent is not seen (notes/assumptions/9.md). -/
theorem exec_mulp10 :
    exec (.mulp10 e) s = s.finish (thenPolicy e.ov (scaleByPower 10 e.rm s.opA s.opN)) := by
  rw [← powerPolicy_eq (.inl rfl) e (fits64_s64 s.a)]
  rfl

theorem exec_divp10 :
    exec (.divp10 e) s = s.finish (thenPolicy e.ov (scaleByPower 10 e.rm s.opA (-s.opN))) := by
  rw [← powerPolicy_eq (.inl rfl) e (fits64_s64 s.a)]
  rfl

end

/-! ### The exact commands -/

/-- Settles O41: the arm of NOP writes `STATUS` alone. -/
theorem nopClearsStatus : Obligations.NopClearsStatus :=
  fun e s => ⟨rfl, exec_nop e s⟩

/-- Settles O42: each of the five ends by the policy on its exact integer. -/
theorem exactCommandsMeetPolicy : Obligations.ExactCommandsMeetPolicy :=
  fun e s => ⟨rfl, rfl, rfl, rfl, rfl,
    exactCommand_of_policy (exec_add e s), exactCommand_of_policy (exec_sub e s),
    exactCommand_of_policy (exec_mull e s), exactCommand_of_policy (exec_abs e s),
    exactCommand_of_policy (exec_neg e s)⟩

/-! ### Product and square -/

theorem cast_scaleFactor (e : Engine) : (scaleFactor e.scale : ℝ) = realFactor e := by
  rw [scaleFactor_eq_pow, realFactor]
  norm_cast

theorem realFactor_ne_zero (e : Engine) : realFactor e ≠ 0 := pow_ne_zero _ (by norm_num)

/-- The product of two decimal numbers, brought back to their scale, is the product of the unscaled
values over the factor. -/
theorem decimal_product_eq (e : Engine) (a b : ℝ) :
    a / realFactor e * (b / realFactor e) * realFactor e = a * b / realFactor e := by
  have := realFactor_ne_zero e
  field_simp

/-- The value function of MUL and SQR rounds the true product. -/
theorem roundq_product_isRounding (e : Engine) (a b : ℤ) :
    IsRounding e.rm ((a : ℝ) / realFactor e * ((b : ℝ) / realFactor e) * realFactor e)
      (roundq e.rm (a * b) (scaleFactor e.scale)) := by
  rw [decimal_product_eq, ← cast_scaleFactor, ← Int.cast_mul]
  exact roundq_isRounding e.rm _ (scaleFactor_pos e.scale).ne'

/-- Settles O43: MUL rounds the true product, then applies the policy. -/
theorem mulMeetsReference : Obligations.MulMeetsReference :=
  fun e s =>
    ⟨rfl, roundedCommand_of_thenPolicy (roundq_product_isRounding e s.opA s.opB) (exec_mul e s)⟩

/-- SQR and MUL with `B = A` end by the same value; neither ending writes `B`. -/
theorem exec_sqr_of_mul {e : Engine} {s t : State} (h : exec (.mul e) { s with b := s.a } = .next t) :
    exec (.sqr e) s = .next { t with b := s.b } := by
  rw [exec_sqr]
  rw [exec_mul] at h
  obtain ⟨x, v, value, rfl⟩ | ⟨c, fault, rfl⟩ := State.finish_cases h
  · rw [value]
    rfl
  · rw [fault]
    rfl

/-- Settles O44: the value of SQR is that of MUL with both operands `A`. -/
theorem sqrMeetsReference : Obligations.SqrMeetsReference := by
  intro e s
  refine ⟨rfl, ?_, fun t => exec_sqr_of_mul⟩
  rw [sq]
  exact roundedCommand_of_thenPolicy (roundq_product_isRounding e s.opA s.opA) (exec_sqr e s)

/-! ### The mean -/

/-- The mean of two 64-bit values lies between the bounds of 64 bits, and so does its rounding (R107). -/
theorem fits64_of_roundsTo_mean {rm : RoundingMode} {x : ℤ} (a b : Word)
    (h : RoundsTo rm (((s64 a : ℝ) + s64 b) / 2) x) : fits64 x = true := by
  obtain ⟨lowerA, upperA⟩ := (fits64_iff _).mp (fits64_s64 a)
  obtain ⟨lowerB, upperB⟩ := (fits64_iff _).mp (fits64_s64 b)
  rify at lowerA upperA lowerB upperB
  exact (fits64_iff x).mpr (roundsTo_bounds h (by linarith) (by linarith))

/-- Settles O45: AVG rounds the half of the exact sum, which is within 64 bits. -/
theorem avgMeetsReference : Obligations.AvgMeetsReference := by
  intro e s
  have mean := roundq_isRounding e.rm (s.opA + s.opB) two_ne_zero
  rw [Int.cast_add, Int.cast_ofNat] at mean
  exact ⟨rfl, roundedFitCommand_of_finishFit mean (fun x => fits64_of_roundsTo_mean s.a s.b)
    (exec_avg e s)⟩

/-! ### Powers of ten -/

/-- Settles O46: both commands follow the power rule of R105, DIVP10 with the exponent negated. -/
theorem powerOfTenMeetsReference : Obligations.PowerOfTenMeetsReference := by
  intro e s
  have rounding (n : ℤ) : IsRounding e.rm ((s.opA : ℝ) * 10 ^ n) (scaleByPower 10 e.rm s.opA n) :=
    scaleByPower_isRounding e.rm (base := 10) (by decide) s.opA n
  refine ⟨rfl, rfl, roundedCommand_of_thenPolicy (rounding s.opN) (exec_mulp10 e s), ?_⟩
  rw [div_eq_mul_inv, ← zpow_neg]
  exact roundedCommand_of_thenPolicy (rounding (-s.opN)) (exec_divp10 e s)

end Sys2Proof.Machine
end

section
/-! SUPPORT. The engine's commands that divide by an operand: DIV, DIVL and INV
(spec/44_engine_div_sqrt_pow.md R116, R117, R119). The zero test comes before rounding and overflow
(R115). -/

namespace Sys2Proof.Machine

section
variable (e : Engine) (s : State)

theorem exec_div :
    exec (.div e) s =
      if s.opB = 0 then .next (s.raise .divisionByZero)
      else s.finish (thenPolicy e.ov (roundq e.rm (s.opA * scaleFactor e.scale) s.opB)) := rfl

theorem exec_divl :
    exec (.divl e) s =
      if s.opB = 0 then .next (s.raise .divisionByZero)
      else s.finish (thenPolicy e.ov (roundq e.rm s.opA s.opB)) := rfl

theorem exec_inv :
    exec (.inv e) s =
      if s.opA = 0 then .next (s.raise .divisionByZero)
      else s.finish (thenPolicy e.ov
        (roundq e.rm (scaleFactor e.scale * scaleFactor e.scale) s.opA)) := rfl

end

/-! ### The quotient -/

/-- A command that tests its divisor and then ends by the rounded quotient faults at 0 in every mode and
meets the reference elsewhere. -/
theorem quotientCommand_meetsReference {i : Instr} {s : State} {divisor : Word} {n : ℤ} {q : ℝ}
    (h : exec i s =
      if s64 divisor = 0 then .next (s.raise .divisionByZero)
      else s.finish (thenPolicy i.engine.ov (roundq i.engine.rm n (s64 divisor))))
    (value : (n : ℝ) / s64 divisor = q) :
    (divisor = 0#64 → exec i s = .next { s with status := 0x31#32 }) ∧
    (divisor ≠ 0#64 → RoundedCommand i q s) := by
  refine ⟨fun zero => ?_, fun nonzero => ?_⟩
  · rw [h, if_pos (s64_eq_zero_iff.mpr zero), State.raise, statusFault_divisionByZero]
  · have hd : s64 divisor ≠ 0 := mt s64_eq_zero_iff.mp nonzero
    rw [if_neg hd] at h
    rw [← value]
    exact roundedCommand_of_thenPolicy (roundq_isRounding _ n hd) h

/-- The quotient of two decimal numbers, at their scale, is the dividend scaled up over the divisor. -/
theorem decimal_quotient_eq (e : Engine) (a b : ℤ) :
    ((a * scaleFactor e.scale : ℤ) : ℝ) / b =
      (a : ℝ) / realFactor e / ((b : ℝ) / realFactor e) * realFactor e := by
  rw [Int.cast_mul, cast_scaleFactor, div_div_div_cancel_right₀ (realFactor_ne_zero e), mul_div_right_comm]

/-- The reciprocal of a decimal number, at its scale, is the square of the factor over the unscaled
value. -/
theorem decimal_reciprocal_eq (e : Engine) (a : ℤ) :
    ((scaleFactor e.scale * scaleFactor e.scale : ℤ) : ℝ) / a =
      1 / ((a : ℝ) / realFactor e) * realFactor e := by
  rw [Int.cast_mul, cast_scaleFactor, one_div_div, mul_div_right_comm]

/-- Settles O47: DIV tests the divisor, then rounds the true quotient. -/
theorem divMeetsReference : Obligations.DivMeetsReference :=
  fun e s => ⟨rfl, quotientCommand_meetsReference (exec_div e s) (decimal_quotient_eq e s.opA s.opB)⟩

/-- Settles O48: DIVL is DIV without the scale factor. -/
theorem divlMeetsReference : Obligations.DivlMeetsReference :=
  fun e s => ⟨rfl, quotientCommand_meetsReference (exec_divl e s) rfl⟩

/-! ### The reciprocal as a quotient -/

/-- DIV with the one-value as dividend ends by the value of INV; neither ending writes `A` or `B`. The
one-value of a legal scale fits `A`. -/
theorem exec_inv_of_div {e : Engine} {s t : State} (legal : e.wf = true)
    (h : exec (.div e) { s with a := wrap64 (10 ^ e.scale.toNat), b := s.a } = .next t) :
    exec (.inv e) s = .next { t with a := s.a, b := s.b } := by
  have dividend : s64 (wrap64 (10 ^ e.scale.toNat)) = scaleFactor e.scale := by
    rw [← scaleFactor_eq_pow, s64_wrap64 (fits64_scaleFactor legal)]
  rw [exec_div, State.opA, State.opB, dividend] at h
  rw [exec_inv]
  by_cases zero : s.opA = 0
  · rw [if_pos zero] at h ⊢
    obtain rfl := Host.Outcome.next.inj h
    rfl
  · rw [if_neg zero] at h ⊢
    obtain ⟨x, v, value, rfl⟩ | ⟨c, fault, rfl⟩ := State.finish_cases h
    · rw [value]
      rfl
    · rw [fault]
      rfl

/-- Settles O49: INV rounds the true reciprocal, and its value is that of DIV with the one-value as
dividend. -/
theorem invMeetsReference : Obligations.InvMeetsReference := by
  intro e s
  obtain ⟨zero, nonzero⟩ := quotientCommand_meetsReference (exec_inv e s) (decimal_reciprocal_eq e s.opA)
  exact ⟨rfl, zero, nonzero, fun legal _ => exec_inv_of_div legal⟩

end Sys2Proof.Machine
end

section
/-! SUPPORT. The rounded square root (spec/44_engine_div_sqrt_pow.md R120, R121): the increment of a root
is that of its fraction, which is never one half. -/

namespace Sys2Proof.Machine

/-! ### The fraction of a root (R121) -/

/-- `q` is what the whole root `t` leaves of the true root, where `rem` is what `t²` leaves of the
radicand. -/
structure RootFraction (t rem : ℕ) (q : ℝ) : Prop where
  nonneg : 0 ≤ q
  square : ((t : ℝ) + q) ^ 2 = t * t + rem

namespace RootFraction

section
variable {t rem : ℕ} {q : ℝ} (h : RootFraction t rem q)
include h

theorem eq_zero_iff : q = 0 ↔ rem = 0 := by
  have excess : q * (2 * t + q) = rem := by linarith [h.square]
  have nonneg := h.nonneg
  rw [← Nat.cast_eq_zero (R := ℝ), ← excess]
  refine ⟨fun zero => by rw [zero, zero_mul], fun product => ?_⟩
  obtain zero | sum := mul_eq_zero.mp product
  · exact zero
  · linarith [(Nat.cast_nonneg t : (0 : ℝ) ≤ t)]

/-- The square of `t + 1/2` is `t² + t + 1/4`, a quarter off the integers. -/
theorem half_lt_iff : 1 / 2 < q ↔ t < rem := by
  have low := h.nonneg
  have size : (0 : ℝ) ≤ t := Nat.cast_nonneg t
  calc 1 / 2 < q ↔ (t : ℝ) + 1 / 2 < t + q := by rw [add_lt_add_iff_left]
    _ ↔ ((t : ℝ) + 1 / 2) ^ 2 < (t + q) ^ 2 := by
      rw [sq_lt_sq₀ (by positivity) (by positivity)]
    _ ↔ (4 * t + 1 : ℝ) < 4 * rem := by
      rw [h.square]
      constructor <;> intro <;> linarith
    _ ↔ t < rem := by
      norm_cast
      omega

theorem ne_half : q ≠ 1 / 2 := by
  rintro rfl
  have quarter : (4 * rem : ℝ) = 4 * t + 1 := by linarith [h.square]
  norm_cast at quarter
  omega

/-- The increment of R121 is that of the fraction. With no midpoint the three half modes are one. -/
theorem sqrtinc_eq_fracInc (rm : RoundingMode) : sqrtinc rm t rem = fracInc rm t q := by
  obtain zero | hne := eq_or_ne q 0
  · simp [sqrtinc, fracInc, h.eq_zero_iff.mp zero, zero, not_movesAway_zero]
  have away : stepAway q = 1 := stepAway_of_nonneg h.nonneg
  have size : |q| = q := abs_of_nonneg h.nonneg
  have above : 1 / 2 < |q| ↔ rem > t := by rw [size, h.half_lt_iff]
  have noTie : |q| ≠ 1 / 2 := size.trans_ne h.ne_half
  simp only [sqrtinc, if_neg (mt h.eq_zero_iff.mpr hne), ← away]
  cases rm with
  | up => exact (fracInc_of_movesAway ((movesAway_up t q).mpr hne)).symm
  | down => exact (fracInc_of_not_movesAway (movesAway_down t q).mp (by simp)).symm
  | ceiling =>
    exact (fracInc_of_movesAway ((movesAway_ceiling t q).mpr (h.nonneg.lt_of_ne' hne))).symm
  | floor =>
    exact (fracInc_of_not_movesAway ((movesAway_floor t q).not.mpr h.nonneg.not_gt) (by simp)).symm
  | halfUp =>
    refine (fracInc_eq_ite (by decide) ?_).symm
    rw [movesAway_halfUp, noTie.symm.le_iff_lt, above]
  | halfDown => exact (fracInc_eq_ite (by decide) ((movesAway_halfDown t q).trans above)).symm
  | halfEven =>
    refine (fracInc_eq_ite (by decide) ?_).symm
    rw [movesAway_halfEven, above, or_iff_left fun tie => noTie tie.1]
  | unnecessary => exact (fracInc_unnecessary hne).symm

end

end RootFraction

/-! ### The rounded root (R120) -/

section
variable {n : ℕ}

theorem isqrt_eq_natSqrt (h : n < 2 ^ 128) : isqrt n = n.sqrt :=
  isqrt_eq h n.sqrt_le n.lt_succ_sqrt

theorem rootFraction_isqrt (h : n < 2 ^ 128) :
    RootFraction (isqrt n) (n - isqrt n * isqrt n) (√n - isqrt n) where
  nonneg := by
    rw [isqrt_eq_natSqrt h, sub_nonneg]
    exact Real.nat_sqrt_le_real_sqrt
  square := by
    rw [add_sub_cancel, Real.sq_sqrt n.cast_nonneg, Nat.cast_sub (isqrt_spec h).1]
    push_cast
    ring

/-- The rounded root is the whole root and the increment of the fraction left over. -/
theorem roundRoot_isRounding (rm : RoundingMode) (h : n < 2 ^ 128) :
    IsRounding rm √n (roundRoot rm n) := by
  have fraction := rootFraction_isqrt h
  have exactRoot : (isqrt n : ℤ) + (√n - isqrt n) = √n := by
    rw [Int.cast_natCast, add_sub_cancel]
  have below : |√n - isqrt n| < 1 := by
    rw [abs_of_nonneg fraction.nonneg, isqrt_eq_natSqrt h, sub_lt_iff_lt_add']
    exact Real.real_sqrt_lt_nat_sqrt_succ
  have side : 0 ≤ ((isqrt n : ℤ) : ℝ) * (√n - isqrt n) :=
    mul_nonneg (by exact_mod_cast Nat.zero_le _) fraction.nonneg
  refine ⟨fun x hx => ?_, fun mode inexact => ?_⟩
  · have increment : fracInc rm (isqrt n) (√n - isqrt n) = .ok (x - isqrt n) := by
      rwa [fracInc_eq_ok_iff below side, exactRoot, add_sub_cancel]
    rw [roundRoot, fraction.sqrtinc_eq_fracInc, increment]
    exact congrArg Except.ok (add_sub_cancel _ _)
  · have hne : √n - isqrt n ≠ 0 := sub_ne_zero.mpr (inexact (isqrt n))
    rw [roundRoot, fraction.sqrtinc_eq_fracInc, mode, fracInc_unnecessary hne]

end

/-! ### The command -/

section
variable (e : Engine) (s : State)

theorem exec_sqrt_of_neg (h : s.opA < 0) : exec (.sqrt e) s = .next (s.raise .invalidArgument) :=
  if_pos h

theorem exec_sqrt_of_nonneg (h : 0 ≤ s.opA) :
    exec (.sqrt e) s = s.finishFit (roundRoot e.rm (s.opA * scaleFactor e.scale).toNat) :=
  if_neg h.not_gt

end

/-- Operand and scale factor are both at most `I64MAX`, so the radicand is at most its square. -/
theorem radicand_le_sq_i64Max {e : Engine} (legal : e.wf = true) (a : Word) :
    s64 a * scaleFactor e.scale ≤ i64Max ^ 2 := by
  have factor := ((fits64_iff _).mp (fits64_scaleFactor legal)).2
  have operand := ((fits64_iff _).mp (fits64_s64 a)).2
  rw [sq]
  exact mul_le_mul operand factor (scaleFactor_pos e.scale).le (by decide)

/-- Settles O50: SQRT rounds the true root of the radicand, and the root lies between 0 and `I64MAX`. -/
theorem sqrtMeetsReference : Obligations.SqrtMeetsReference := by
  intro e s legal
  refine ⟨rfl, exec_sqrt_of_neg e s, fun nonneg => ?_⟩
  have radicand : (((s.opA * scaleFactor e.scale).toNat : ℤ) : ℝ) = s64 s.a * realFactor e := by
    rw [Int.toNat_of_nonneg (mul_nonneg nonneg (scaleFactor_pos e.scale).le), Int.cast_mul,
      cast_scaleFactor]
  have bound : s.opA * scaleFactor e.scale ≤ i64Max ^ 2 := radicand_le_sq_i64Max legal s.a
  have small : (s.opA * scaleFactor e.scale).toNat < 2 ^ 128 := by
    rw [i64Max] at bound
    omega
  have rounding := roundRoot_isRounding e.rm small
  rw [← Int.cast_natCast, radicand] at rounding
  have upper : √(s64 s.a * realFactor e) ≤ i64Max := by
    refine Real.sqrt_le_iff.mpr ⟨by exact_mod_cast (by decide : 0 ≤ i64Max), ?_⟩
    rw [← cast_scaleFactor]
    exact_mod_cast bound
  have lower : (i64Min : ℝ) ≤ √(s64 s.a * realFactor e) :=
    le_trans (by exact_mod_cast (by decide : i64Min ≤ 0)) (Real.sqrt_nonneg _)
  exact roundedFitCommand_of_finishFit rounding
    (fun x hx => (fits64_iff x).mpr (roundsTo_bounds hx lower upper)) (exec_sqrt_of_nonneg e s nonneg)

end Sys2Proof.Machine
end

section
/-! SUPPORT. The shifts (spec/44_engine_div_sqrt_pow.md R123, R124): the power rule in base two, and the
arithmetic right shift as the floor of a quotient. -/

namespace Sys2Proof.Machine

section
variable (e : Engine) (s : State)

/-- The cap on the count is not seen (notes/assumptions/9.md). -/
theorem exec_shl :
    exec (.shl e) s = s.finish (thenPolicy e.ov (scaleByPower 2 e.rm s.opA s.opN)) := by
  rw [← powerPolicy_eq (.inr rfl) e (fits64_s64 s.a)]
  rfl

theorem exec_shr :
    exec (.shr e) s = s.finish (thenPolicy e.ov (scaleByPower 2 e.rm s.opA (-s.opN))) := by
  rw [← powerPolicy_eq (.inr rfl) e (fits64_s64 s.a)]
  rfl

end

theorem s64_sshiftRight (a : Word) (k : ℕ) : s64 (a.sshiftRight k) = ⌊(s64 a : ℝ) / 2 ^ k⌋ := by
  have quotient := Int.floor_div_natCast (s64 a : ℝ) (2 ^ k)
  rw [Int.floor_intCast, Nat.cast_pow, Nat.cast_ofNat] at quotient
  rw [quotient, s64, BitVec.toInt_sshiftRight, Int.shiftRight_eq_div_pow]
  rfl

/-- The arithmetic right shift of a pattern is its number over the power of two, rounded down. -/
theorem roundsTo_floor_sshiftRight (a : Word) (k : ℕ) :
    RoundsTo .floor ((s64 a : ℝ) / 2 ^ k) (s64 (a.sshiftRight k)) := by
  rw [s64_sshiftRight]
  exact ⟨Int.floor_le _, Int.lt_floor_add_one _⟩

/-- In mode FLOOR a command that meets the reference of a quotient by `2^k` is the arithmetic shift: what
the shift leaves always fits. -/
theorem exec_eq_sshiftRight_of_roundedCommand {i : Instr} {s : State} {a : Word} {k : ℕ}
    (h : RoundedCommand i ((s64 a : ℝ) / 2 ^ k) s) (mode : i.engine.rm = .floor) :
    exec i s = .next { s with r := a.sshiftRight k, status := 0x00#32 } := by
  obtain ⟨completes, -, -⟩ := h
  have fits := fits64_s64 (a.sshiftRight k)
  rw [mode] at completes
  rw [completes _ (roundsTo_floor_sshiftRight a k) (.inr fits), if_pos fits, wrap64_s64]

/-- Settles O53: both commands follow the power rule, SHR with the count negated; in mode FLOOR the
rounded quotient is the arithmetic shift. -/
theorem shiftsMeetReference : Obligations.ShiftsMeetReference := by
  intro e s
  have rounding (n : ℤ) : IsRounding e.rm ((s.opA : ℝ) * 2 ^ n) (scaleByPower 2 e.rm s.opA n) :=
    scaleByPower_isRounding e.rm (base := 2) (by decide) s.opA n
  have right : RoundedCommand (.shr e) ((s.opA : ℝ) / 2 ^ s.opN) s := by
    rw [div_eq_mul_inv, ← zpow_neg]
    exact roundedCommand_of_thenPolicy (rounding (-s.opN)) (exec_shr e s)
  refine ⟨rfl, rfl, roundedCommand_of_thenPolicy (rounding s.opN) (exec_shl e s), right,
    fun mode nonneg => exec_eq_sshiftRight_of_roundedCommand ?_ mode⟩
  rwa [← zpow_natCast, Int.toNat_of_nonneg nonneg]

end Sys2Proof.Machine
end

section
/-! SUPPORT. The engine's comparison and integer conversion commands (spec/45_engine_compare_convert.md
R130 to R134). -/

namespace Sys2Proof.Machine

section
variable (e : Engine) (s : State)

theorem exec_cmp :
    exec (.cmp e) s = .next { s with r := wrap64 (s.opA - s.opB).sign, status := 0x00#32 } := by
  rw [← State.succeed_false_eq]
  rfl

theorem exec_sgn :
    exec (.sgn e) s = .next { s with r := wrap64 s.opA.sign, status := 0x00#32 } := by
  rw [← State.succeed_false_eq]
  rfl

theorem exec_froml :
    exec (.froml e) s = s.finish (policy e.ov (s.opA * scaleFactor e.scale)) := rfl

theorem exec_tol :
    exec (.tol e) s = s.finishFit (roundq e.rm s.opA (scaleFactor e.scale)) := rfl

/-- The cap on the exponent is not seen (notes/assumptions/9.md). -/
theorem exec_rescale :
    exec (.rescale e) s =
      s.finish (thenPolicy e.ov (scaleByPower 10 e.rm s.opA ((e.scale.toNat : ℤ) - s.opN))) := by
  rw [← powerPolicy_eq (.inl rfl) e (fits64_s64 s.a)]
  rfl

end

/-! ### Comparison -/

/-- Settles O54: the sign of the difference in `Int` is the order of the operands. -/
theorem compareGivesSign : Obligations.CompareGivesSign := by
  intro e s
  refine ⟨rfl, rfl, ?_, ?_⟩
  · simp only [exec_cmp, wrap64_sign, sub_neg, sub_eq_zero]
  · rw [exec_sgn, wrap64_sign]

/-! ### From a plain integer -/

section
variable {scale : BitVec 5} {m : ℤ}

theorem le_maxIntegerPart_iff : m ≤ maxIntegerPart scale ↔ m * scaleFactor scale ≤ i64Max := by
  have positive := scaleFactor_pos scale
  rw [maxIntegerPart, Int.fdiv_eq_ediv_of_nonneg _ positive.le, Int.le_ediv_iff_mul_le positive]

theorem minIntegerPart_le_iff : minIntegerPart scale ≤ m ↔ i64Min ≤ m * scaleFactor scale := by
  have positive := scaleFactor_pos scale
  rw [minIntegerPart, neg_le, Int.fdiv_eq_ediv_of_nonneg _ positive.le,
    Int.le_ediv_iff_mul_le positive, neg_mul, neg_le_neg_iff]

end

/-- Settles O55: FROML ends by the policy on the exact product, and the constants of R20 are the floor
and the ceiling of the bounds of 64 bits over the factor. -/
theorem fromlBounds : Obligations.FromlBounds := by
  intro e s _
  simp only [← scaleFactor_eq_pow]
  refine ⟨rfl, exactCommand_of_policy (exec_froml e s), ?_⟩
  rw [fits64_iff, minIntegerPart_le_iff, le_maxIntegerPart_iff]

/-! ### To a plain integer -/

theorem one_le_realFactor (e : Engine) : 1 ≤ realFactor e := one_le_pow₀ (by norm_num)

/-- Division by a factor of at least 1 does not leave the bounds of 64 bits, and neither does its rounding
(R133). -/
theorem fits64_of_roundsTo_div {rm : RoundingMode} {f : ℝ} {x : ℤ} (a : Word) (hf : 1 ≤ f)
    (h : RoundsTo rm ((s64 a : ℝ) / f) x) : fits64 x = true := by
  have positive : 0 < f := by linarith
  obtain ⟨lower, upper⟩ := (fits64_iff _).mp (fits64_s64 a)
  rify at lower upper
  have minNonpos : (i64Min : ℝ) ≤ 0 := by exact_mod_cast (by decide : i64Min ≤ 0)
  have maxNonneg : (0 : ℝ) ≤ i64Max := by exact_mod_cast (by decide : 0 ≤ i64Max)
  refine (fits64_iff x).mpr (roundsTo_bounds h ?_ ?_)
  · rw [le_div_iff₀ positive]
    exact (mul_le_of_one_le_right minNonpos hf).trans lower
  · rw [div_le_iff₀ positive]
    exact upper.trans (le_mul_of_one_le_right maxNonneg hf)

/-- Settles O56: TOL rounds the quotient by the factor, which is within 64 bits. -/
theorem tolMeetsReference : Obligations.TolMeetsReference := by
  intro e s
  have quotient := roundq_isRounding e.rm s.opA (scaleFactor_pos e.scale).ne'
  rw [cast_scaleFactor] at quotient
  exact ⟨rfl, roundedFitCommand_of_finishFit quotient
    (fun _ => fits64_of_roundsTo_div s.a (one_le_realFactor e)) (exec_tol e s)⟩

/-! ### Between scales -/

/-- A number of source scale `n` at the engine's scale `s` is the unscaled value times `10^(s - n)`. -/
theorem decimal_rescale_eq (e : Engine) (a : ℝ) (n : ℤ) :
    a / 10 ^ n * realFactor e = a * 10 ^ ((e.scale.toNat : ℤ) - n) := by
  rw [realFactor, zpow_sub₀ (by norm_num), zpow_natCast, div_mul_eq_mul_div, mul_div_assoc]

/-- Settles O57: RESCALE follows the power rule of R105 with the exponent `s - sourceScale`. -/
theorem rescaleMeetsReference : Obligations.RescaleMeetsReference := by
  intro e s
  refine ⟨rfl, ?_⟩
  rw [decimal_rescale_eq]
  exact roundedCommand_of_thenPolicy
    (scaleByPower_isRounding e.rm (base := 10) (by decide) s.opA _) (exec_rescale e s)

end Sys2Proof.Machine
end

section
/-! SUPPORT. The exceptions (spec/60_exceptions.md R140, R141): a command carries out one `Effect`, and
the effects that leave `ERR = 1` are the faults. -/

namespace Sys2Proof.Machine

theorem agreeOnReads_refl (i : Instr) (s : State) : agreeOnReads i s s := by
  cases i <;> simp [agreeOnReads]

theorem statusErr_statusOk (v : Bool) : statusErr (statusOk v) = false := by
  cases v <;> decide

/-- `ERR` tells a fault from a success. -/
theorem Effect.statusErr_iff {u : Effect} : statusErr u.status = true ↔ ∃ c, u = .fault c := by
  cases u with
  | fault c => simp [Effect.status, statusErr_statusFault]
  | done r w v => simp [Effect.status, statusErr_statusOk]

section
variable {s t : State}

/-- All that a command can do: an effect that fits its row of spec/10_state.md R16. -/
theorem exec_cases {i : Instr} (h : exec i s = .next t) :
    ∃ u : Effect, u.FitsRow i.writesR i.writesW ∧ t = s.apply u := by
  obtain ⟨u, row, run, -⟩ := exec_alike (agreeOnReads_refl i s)
  exact ⟨u, row, Host.Outcome.next.inj (h.symm.trans run)⟩

/-- A command that leaves `ERR = 1` has raised a fault. -/
theorem exists_raise_of_exec_err {i : Instr} (h : exec i s = .next t)
    (err : statusErr t.status = true) : ∃ c, t = s.raise c := by
  obtain ⟨u, -, rfl⟩ := exec_cases h
  rw [State.apply_status] at err
  obtain ⟨c, rfl⟩ := Effect.statusErr_iff.mp err
  exact ⟨c, rfl⟩

/-- A launch that leaves `ERR = 1` has raised a fault: the command's, or ILLEGAL_COMMAND. -/
theorem exists_raise_of_execute_err (h : execute s = .next t) (err : statusErr t.status = true) :
    ∃ c, t = s.raise c := by
  obtain ⟨i, -, run⟩ | ⟨_, -, illegal⟩ := execute_cases h
  · exact exists_raise_of_exec_err run.symm err
  · exact ⟨.illegalCommand, Host.Outcome.next.inj illegal⟩

end

/-- The word of a fault as the number its fields make: `ERR`, `V` for code 1, the code from bit 4 up
(R140, R141). -/
theorem exists_code_statusFault (cause : Cause) :
    ∃ c ∈ [1, 2, 3, 4, 5], (statusFault cause).toNat = 1 + (if c = 1 then 2 else 0) + 16 * c := by
  refine ⟨(causeCode cause).toNat, ?_⟩
  cases cause <;> decide

/-- Settles O19: such a launch has raised a fault, which writes `STATUS` alone, with the word of its
cause. -/
theorem faultWritesStatusOnly : Obligations.FaultWritesStatusOnly := by
  intro s t run err
  obtain ⟨cause, rfl⟩ := exists_raise_of_execute_err run err
  exact ⟨rfl, exists_code_statusFault cause⟩

end Sys2Proof.Machine
end

section
/-! SUPPORT. The round trip between words and commands (spec/30_encoding.md R46, R47, R50). -/

namespace Sys2Proof

/-- The five fields of a word, side by side, are the word (R46). -/
theorem append_fields (w : Word32) :
    (cmdZero w ++ cmdOv w ++ cmdRm w ++ cmdScale w ++ cmdOp w : BitVec (15 + 1 + 3 + 5 + 8)) = w := by
  have join {hi lo len len' : ℕ} (adjacent : hi = lo + len) :
      w.extractLsb' hi len' ++ w.extractLsb' lo len = w.extractLsb' lo (len' + len) :=
    BitVec.extractLsb'_append_extractLsb'_eq_extractLsb' adjacent
  rw [cmdZero, cmdOv, cmdRm, cmdScale, cmdOp, join (hi := 17) rfl, join (hi := 16) rfl,
    join (hi := 13) rfl, join (hi := 8) rfl]
  exact BitVec.extractLsb'_eq_self

/-- A word whose reserved field is 0 is assembled from its opcode and its triple. -/
theorem assembleWord_cmdOp_cmdEngine {w : Word32} (reserved : cmdZero w = 0#15) :
    assembleWord (cmdOp w) (cmdEngine w) = w := by
  simp only [assembleWord, cmdEngine, overflowModeCode_ofCode, roundingModeCode_ofCode, ← reserved]
  exact append_fields w

/-- Settles O1: the fields of an assembled word are those it was assembled from, and `decode` asks for
those alone. -/
theorem decodeOfEncode : Obligations.DecodeOfEncode := by
  intro i wf
  rw [encode, decode_eq_ok_iff, cmdZero_assembleWord, cmdEngine_assembleWord, cmdOp_assembleWord]
  exact ⟨rfl, wf, rfl, rfl⟩

/-- Settles O2: a decoded command has the word's opcode and triple, of which the word is assembled. -/
theorem encodeOfDecode : Obligations.EncodeOfDecode := by
  intro w i decoded
  obtain ⟨reserved, wf, opcode_eq, engine_eq⟩ := decode_eq_ok_iff.mp decoded
  rw [Instr.wf, encode, opcode_eq, engine_eq]
  exact ⟨wf, assembleWord_cmdOp_cmdEngine reserved⟩

/-- Settles O5: the seven legal words are the encodings of the commands beside them; each of the other
three fails a test of R47. -/
theorem sampleWordsDecode : Obligations.SampleWordsDecode := by
  have legal {w : Word32} (i : Instr) (wf : i.wf = true) (word : encode i = w) : decode w = .ok i :=
    word ▸ decodeOfEncode i wf
  exact ⟨legal _ rfl (by decide), legal _ rfl (by decide), legal _ rfl (by decide),
    legal _ rfl (by decide), legal _ rfl (by decide), legal _ rfl (by decide),
    legal _ rfl (by decide), by decide, by decide, by decide⟩

end Sys2Proof
end

section
/-! SUPPORT. Transactions and steps (spec/20_memory.md R31, R33, R35; spec/70_reset_and_hazards.md R160;
spec/60_exceptions.md R150, R152): each answers a next state and does not look at the stream behind
it. -/

namespace Sys2Proof.Machine

/-! ### The stream behind a transaction (R35) -/

/-- The state with another stream pending. -/
def State.withPending (s : State) (p : List HostTxn) : State := { s with pending := p }

/-- From `s`, `f` answers a next state, the same but for the stream whatever stream is pending, and leaves
the stream as it is. -/
def IgnoresStream (f : State → Host.Outcome State Fault Refusal) (s : State) : Prop :=
  ∃ t : State, ∀ q, f (s.withPending q) = .next (t.withPending q)

section
variable (s : State) (q : List HostTxn)

theorem agreeOnReads_withPending (i : Instr) : agreeOnReads i s (s.withPending q) := by
  cases i <;> simp [agreeOnReads, State.withPending]

theorem State.apply_withPending (u : Effect) :
    (s.withPending q).apply u = (s.apply u).withPending q := by
  cases u <;> rfl

theorem State.readReg_withPending (p : PortReg) : (s.withPending q).readReg p = s.readReg p := by
  cases p <;> rfl

theorem State.writeReg_withPending (data : Word) (p : PortReg) :
    (s.withPending q).writeReg data p = (s.writeReg data p).withPending q := by
  cases p <;> rfl

end

section
variable (s : State)

theorem exec_answers (i : Instr) : ∃ t, exec i s = .next t := by
  obtain ⟨u, -, run, -⟩ := exec_alike (agreeOnReads_refl i s)
  exact ⟨s.apply u, run⟩

theorem exec_ignoresStream (i : Instr) : IgnoresStream (exec i) s := by
  obtain ⟨t, run⟩ := exec_answers s i
  refine ⟨t, fun q => ?_⟩
  obtain ⟨u, -, here, there⟩ := exec_alike (agreeOnReads_withPending s q i)
  rw [there, State.apply_withPending, Host.Outcome.next.inj (run.symm.trans here)]

theorem execute_of_legal {s : State} {i : Instr} (h : decode s.cmd = .ok i) :
    execute s = exec i s := by
  rw [execute, h]

theorem execute_ignoresStream : IgnoresStream execute s := by
  by_cases legal : ∃ i, decode s.cmd = .ok i
  · obtain ⟨i, decoded⟩ := legal
    obtain ⟨t, run⟩ := exec_ignoresStream s i
    exact ⟨t, fun q => (execute_of_legal (s := s.withPending q) decoded).trans (run q)⟩
  · exact ⟨s.raise .illegalCommand, fun q => execute_of_illegal (s := s.withPending q) legal⟩

theorem hostWrite_ignoresStream (index : BitVec 3) (data : Word) :
    IgnoresStream (hostWrite index data) s := by
  by_cases launches : portReg index = .cmd
  · obtain ⟨t, run⟩ := execute_ignoresStream (s.writeReg data .cmd)
    exact ⟨t, fun q => (if_pos launches).trans (run q)⟩
  · refine ⟨s.writeReg data (portReg index), fun q => ?_⟩
    rw [← State.writeReg_withPending]
    exact if_neg launches

theorem transact_ignoresStream (x : HostTxn) : IgnoresStream (transact x) s := by
  cases x with
  | write index data => exact hostWrite_ignoresStream { s with readData := none } index data
  | read index =>
    refine ⟨{ s with readData := some (hostRead index s) }, fun q => ?_⟩
    rw [transact, hostRead, State.readReg_withPending]
    rfl
  | reset => exact ⟨hostReset { s with readData := none }, fun q => rfl⟩

/-! ### One step -/

theorem step_answers : ∃ t, step s = .next t := by
  obtain ⟨-, idle⟩ | ⟨x, rest, -, taken⟩ := step_cases (s := s) rfl
  · exact ⟨s, idle⟩
  · obtain ⟨t, run⟩ := transact_ignoresStream s x
    exact ⟨t.withPending rest, taken.trans (run rest)⟩

end

/-- Settles O15: a command carries out its effect, and a step is idle or one transaction. -/
theorem everyStepAnswers : Obligations.EveryStepAnswers :=
  ⟨fun i s => exec_answers s i, step_answers⟩

/-- Settles O9: a stream with a head steps by `transact` of it, an empty one is idle. -/
theorem stepTakesNextTransaction : Obligations.StepTakesNextTransaction :=
  fun _ _ _ _ => ⟨step_cons, step_cons, step_idle⟩

/-- Settles O6: the step is the write to index 7, which stores the word and launches it, and a legal word
launches its command. -/
theorem stepRunsDecodedCommand : Obligations.StepRunsDecodedCommand := by
  intro s data rest i pending decoded
  calc step s
      = hostWrite 7#3 data { s with pending := rest, readData := none } := step_cons pending
    _ = execute { s with pending := rest, readData := none, cmd := data.extractLsb' 0 32 } :=
        hostWrite_portIndex_cmd _ data
    _ = exec i { s with pending := rest, readData := none, cmd := data.extractLsb' 0 32 } :=
        execute_of_legal decoded

/-- The `fault` output is low where `STATUS` is 0 (R148). -/
theorem State.faultLine_of_status_zero {s : State} (h : s.status = 0#32) : s.faultLine = false := by
  rw [State.faultLine, h, ← statusOk_false, statusErr_statusOk]

/-- Settles O10: the step is `hostReset`, which clears both registers and keeps the stream. -/
theorem resetInputClears : Obligations.ResetInputClears := by
  intro s rest pending
  exact ⟨_, step_cons pending, hostReset_status _, hostReset_cmd _,
    State.faultLine_of_status_zero (hostReset_status _), hostReset_pending _⟩

/-! ### Many steps -/

theorem run_succ {s t : State} (k : Nat) (h : step s = .next t) :
    Host.Core.run core (k + 1) s = Host.Core.run core k t := by
  have coreStep : core.step s = .next t := h
  simp only [Host.Core.run, coreStep]

/-- As many steps as the stream has first transactions take exactly those. -/
theorem run_length_ignoresRest (xs : List HostTxn) : ∀ s : State, ∃ t : State, ∀ ys,
    Host.Core.run core xs.length (s.withPending (xs ++ ys)) = .next (t.withPending ys) := by
  induction xs with
  | nil => exact fun s => ⟨s, fun _ => rfl⟩
  | cons x xs ih =>
    intro s
    obtain ⟨u, first⟩ := transact_ignoresStream s x
    obtain ⟨t, others⟩ := ih u
    refine ⟨t, fun ys => ?_⟩
    have taken : step (s.withPending (x :: (xs ++ ys))) = .next (u.withPending (xs ++ ys)) :=
      first (xs ++ ys)
    exact (run_succ xs.length taken).trans (others ys)

/-- Settles O14: the first transactions lead to one state, whatever is pending behind them. -/
theorem laterTransactionsWait : Obligations.LaterTransactionsWait := by
  intro s t xs ys run
  obtain ⟨u, firsts⟩ := run_length_ignoresRest xs s
  obtain rfl : t = u.withPending ys := Host.Outcome.next.inj (run.symm.trans (firsts ys))
  have alone := firsts []
  rw [List.append_nil] at alone
  exact ⟨rfl, alone⟩

/-! ### Several instances (R152) -/

section
variable {cores : List State} {k : Nat}

theorem platformStep_of_none (h : cores[k]? = none) : platformStep cores k = cores := by
  rw [platformStep, h]

theorem platformStep_of_step {s t : State} (h : cores[k]? = some s) (run : step s = .next t) :
    platformStep cores k = cores.set k t := by
  rw [platformStep, h]
  simp only [run]

/-- All that a step of the platform can do. -/
theorem platformStep_cases (cores : List State) (k : Nat) :
    (cores[k]? = none ∧ platformStep cores k = cores) ∨
    (∃ s t, cores[k]? = some s ∧ step s = .next t ∧ platformStep cores k = cores.set k t) := by
  cases h : cores[k]? with
  | none => exact .inl ⟨rfl, platformStep_of_none h⟩
  | some s =>
    obtain ⟨t, run⟩ := step_answers s
    exact .inr ⟨s, t, rfl, run, platformStep_of_step h run⟩

end

/-- Settles O17: a step of the platform puts the next state of one block in its place. -/
theorem instancesAreIsolated : Obligations.InstancesAreIsolated := by
  intro cores k
  obtain ⟨absent, same⟩ | ⟨s, t, present, run, changed⟩ := platformStep_cases cores k
  · rw [same]
    exact ⟨rfl, fun _ _ => rfl, fun _ _ present _ => by simp [absent] at present⟩
  · rw [changed]
    refine ⟨List.length_set, fun j other => List.getElem?_set_ne other.symm, fun s' t' here alone => ?_⟩
    obtain rfl : s = s' := Option.some.inj (present.symm.trans here)
    obtain rfl : t = t' := Host.Outcome.next.inj (run.symm.trans alone)
    have inRange : k < cores.length := (List.getElem?_eq_some_iff.mp present).1
    exact List.getElem?_set_self inRange

end Sys2Proof.Machine
end

section
/-! SUPPORT. What a command writes and what it reports (spec/10_state.md R14, R16, R18;
spec/60_exceptions.md R140 to R143): the table of causes, read off the ways a command ends. -/

namespace Sys2Proof.Machine

/-- Settles O18: the effect of a command changes the four registers alone, and fits the command's row. -/
theorem writesFollowTable : Obligations.WritesFollowTable := by
  intro i s t run
  obtain ⟨u, row, rfl⟩ := exec_cases run
  refine ⟨s.apply_frame u, fun noR => ?_, fun noW => ?_⟩
  · rw [noR] at row
    exact row.apply_r_unchanged s
  · rw [noW] at row
    exact row.apply_w_unchanged s

/-! ### Rounding faults (R143) -/

/-- The value fails, if at all, with ROUNDING_REQUIRED in mode UNNECESSARY. -/
def OnlyRounds (rm : RoundingMode) (res : Except Cause Int) : Prop :=
  ∀ c, res = .error c → c = .roundingRequired ∧ rm = .unnecessary

theorem onlyRounds_of_error_iff {rm : RoundingMode} {res : Except Cause Int} {inexact : Prop}
    (h : ∀ c, res = .error c ↔ c = .roundingRequired ∧ rm = .unnecessary ∧ inexact) :
    OnlyRounds rm res := by
  intro c fault
  obtain ⟨cause, mode, -⟩ := (h c).mp fault
  exact ⟨cause, mode⟩

section
variable (rm : RoundingMode)

theorem roundq_onlyRounds (n d : Int) : OnlyRounds rm (roundq rm n d) :=
  onlyRounds_of_error_iff fun _ => roundq_error_iff

theorem roundRoot_onlyRounds (n : Nat) : OnlyRounds rm (roundRoot rm n) :=
  onlyRounds_of_error_iff fun _ => roundRoot_error_iff.trans sqrtinc_error_iff

theorem inc_onlyRounds (t r d : Int) : OnlyRounds rm (inc rm t r d) :=
  onlyRounds_of_error_iff fun _ => inc_error_iff

theorem incd_onlyRounds (t : Int) (dg : Nat) (nz ng : Bool) : OnlyRounds rm (incd rm t dg nz ng) :=
  onlyRounds_of_error_iff fun _ => incd_error_iff

theorem scaleByPower_onlyRounds (base : Nat) (a n : Int) :
    OnlyRounds rm (scaleByPower base rm a n) := by
  rw [scaleByPower]
  split
  · exact fun c h => nomatch h
  · exact roundq_onlyRounds rm a _

end

/-! ### Values within a command's table -/

/-- The value sets `V` only where the command can, or is a cause the command can raise. -/
def Permits (i : Instr) {α : Type} : Except Cause (α × Bool) → Prop
  | .ok p => p.2 = true → i.mayFlag
  | .error c => i.mayRaise c

section
variable {i : Instr}

/-- The policy ends only the commands that use `ov` (R142). -/
theorem permits_policy (usesOv : i.usesOv = true) (x : Int) : Permits i (policy i.engine.ov x) := by
  obtain ⟨value, unchecked | fits⟩ | ⟨fault, checked, -⟩ := policy_cases i.engine.ov x
  · rw [value]
    exact fun _ => .inl ⟨usesOv, unchecked⟩
  · rw [value, fits]
    exact fun set => Bool.noConfusion set
  · rw [fault]
    exact ⟨usesOv, checked⟩

section
variable (usesOv : i.usesOv = true) (usesRm : i.usesRm = true)
include usesOv usesRm

theorem permits_thenPolicy {res : Except Cause Int} (rounding : OnlyRounds i.engine.rm res) :
    Permits i (thenPolicy i.engine.ov res) := by
  obtain ⟨x, -, value⟩ | ⟨c, fault, same⟩ := thenPolicy_cases i.engine.ov res
  · rw [value]
    exact permits_policy usesOv x
  · obtain ⟨rfl, mode⟩ := rounding c fault
    rw [same]
    exact ⟨usesRm, mode⟩

theorem permits_roundPolicy (n d : Int) : Permits i (roundPolicy i.engine n d) :=
  permits_thenPolicy usesOv usesRm (roundq_onlyRounds _ n d)

theorem permits_powerPolicy (base : Nat) (a n : Int) : Permits i (powerPolicy base i.engine a n) :=
  permits_thenPolicy usesOv usesRm (scaleByPower_onlyRounds _ base a _)

/-- A step of POW keeps the flag of the steps before it (spec/44_engine_div_sqrt_pow.md R122). -/
theorem permits_powStep (n d : Int) {v : Bool} (before : v = true → i.mayFlag) :
    Permits i (powStep i.engine n d v) := by
  have now := permits_roundPolicy usesOv usesRm n d
  rw [powStep]
  generalize roundPolicy i.engine n d = res at now ⊢
  cases res with
  | ok p => exact fun either => (Bool.or_eq_true_iff.mp either).elim before now
  | error c => exact now

theorem permits_powLoop (a : Int) (ex k : Nat) : ∀ (p : Int) (v : Bool), (v = true → i.mayFlag) →
    Permits i (powLoop i.engine a ex k p v) := by
  induction k with
  | zero => exact fun p v before => before
  | succ k ih =>
    intro p v before
    have square := permits_powStep usesOv usesRm (p * p) (scaleFactor i.engine.scale) before
    rw [powLoop]
    generalize powStep i.engine (p * p) (scaleFactor i.engine.scale) v = res at square ⊢
    obtain c | ⟨sq, v₁⟩ := res
    · exact square
    dsimp only
    split
    case isFalse => exact ih sq v₁ square
    case isTrue =>
      have multiply := permits_powStep usesOv usesRm (sq * a) (scaleFactor i.engine.scale) square
      generalize powStep i.engine (sq * a) (scaleFactor i.engine.scale) v₁ = res at multiply ⊢
      obtain c | ⟨pr, v₂⟩ := res
      · exact multiply
      · exact ih pr v₂ multiply

theorem permits_powMagnitude (a : Int) (ex : Nat) : Permits i (powMagnitude i.engine a ex) := by
  rw [powMagnitude]
  split
  · exact fun set => Bool.noConfusion set
  · exact permits_powLoop usesOv usesRm a ex _ a false fun set => Bool.noConfusion set

theorem permits_powValue (zero : i.mayDivideByZero = true) (a n : Int) :
    Permits i (powValue i.engine a n) := by
  have magnitude := permits_powMagnitude usesOv usesRm a n.natAbs
  rw [powValue]
  generalize powMagnitude i.engine a n.natAbs = res at magnitude ⊢
  obtain c | ⟨p, v⟩ := res
  · exact magnitude
  dsimp only
  split_ifs
  · exact zero
  · exact permits_powStep usesOv usesRm _ _ magnitude
  · exact magnitude

end

end

/-! ### From the value to `STATUS` -/

/-- A `STATUS` word the command can leave in its modes: a success, with `V` where the command can set it,
or the fault of a cause it can raise. -/
def MayReport (i : Instr) (w : Word32) : Prop :=
  w = 0x00#32 ∨ (w = 0x02#32 ∧ i.mayFlag) ∨
  (w = 0x13#32 ∧ i.mayRaise .overflow) ∨
  (w = 0x21#32 ∧ i.mayRaise .roundingRequired) ∨
  (w = 0x31#32 ∧ i.mayRaise .divisionByZero) ∨
  (w = 0x41#32 ∧ i.mayRaise .invalidArgument)

/-- The outcome is a next state, and its `STATUS` is a report the command can make. -/
def Reports (i : Instr) (o : Host.Outcome State Fault Refusal) : Prop :=
  ∃ t, o = .next t ∧ MayReport i t.status

section
variable {i : Instr} (s : State)

theorem mayReport_statusOk {v : Bool} (h : v = true → i.mayFlag) : MayReport i (statusOk v) := by
  cases v with
  | false => exact .inl statusOk_false
  | true => exact .inr (.inl ⟨statusOk_true, h rfl⟩)

theorem mayReport_statusFault {c : Cause} (h : i.mayRaise c) : MayReport i (statusFault c) := by
  cases c with
  | illegalCommand => exact h.elim
  | _ => simp [MayReport, h]

theorem reports_raise {c : Cause} (h : i.mayRaise c) : Reports i (.next (s.raise c)) :=
  ⟨_, rfl, mayReport_statusFault h⟩

theorem reports_succeed (x : Word) {v : Bool} (h : v = true → i.mayFlag) :
    Reports i (.next (s.succeed x v)) :=
  ⟨_, rfl, mayReport_statusOk h⟩

theorem reports_succeed_false (x : Word) : Reports i (.next (s.succeed x false)) :=
  reports_succeed s x fun set => Bool.noConfusion set

theorem reports_succeedWide (silent : i.flagsSilently = true) (w : Wide) :
    Reports i (.next (s.succeedWide w)) :=
  ⟨_, rfl, mayReport_statusOk fun _ => .inr silent⟩

/-- A result in `R` beside one in `W`, the ending of DIVW and ISQRT. -/
theorem reports_wideAndResult (silent : i.flagsSilently = true) (x : Word) (w : Wide) (v : Bool) :
    Reports i (.next { s.withWide w with r := x, status := statusOk v }) :=
  ⟨_, rfl, mayReport_statusOk fun _ => .inr silent⟩

theorem reports_finish {res : Except Cause (Word × Bool)} (h : Permits i res) :
    Reports i (s.finish res) := by
  cases res with
  | ok p => exact reports_succeed s p.1 h
  | error c => exact reports_raise s h

theorem reports_finishFit (usesRm : i.usesRm = true) {res : Except Cause Int}
    (rounding : OnlyRounds i.engine.rm res) : Reports i (s.finishFit res) := by
  cases res with
  | ok x => exact reports_succeed_false s (wrap64 x)
  | error c =>
    obtain ⟨rfl, mode⟩ := rounding c rfl
    exact reports_raise s ⟨usesRm, mode⟩

/-- An operand test before a command's ending (R147). -/
theorem reports_guard {o : Host.Outcome State Fault Refusal} (test : Prop) [Decidable test] {c : Cause}
    (h : i.mayRaise c) (otherwise : Reports i o) :
    Reports i (if test then .next (s.raise c) else o) := by
  split
  · exact reports_raise s h
  · exact otherwise

/-- Every command reports within its table. The cases go by how the commands end. -/
theorem exec_reports (i : Instr) : Reports i (exec i s) := by
  cases i with
  | nop e => exact ⟨_, rfl, .inl rfl⟩
  | sfget e | sfmaxi e | sfmini e | sfdiv e | sfmod e | wfits e | wisneg e | wsignum e | cmp e
  | sgn e => exact reports_succeed_false s _
  | sfmul e => exact reports_succeed s _ fun _ => .inr rfl
  | add64w e | mul64 e | wneg e => exact reports_succeedWide s rfl _
  | divw e => exact reports_guard s _ rfl (reports_wideAndResult s rfl _ _ _)
  | isqrt e => exact reports_guard s _ rfl (reports_wideAndResult s rfl _ _ _)
  | add e | sub e | mull e | abs e | neg e | froml e => exact reports_finish s (permits_policy rfl _)
  | mul e | sqr e => exact reports_finish s (permits_roundPolicy rfl rfl _ _)
  | mulp10 e | divp10 e | shl e | shr e | rescale e =>
    exact reports_finish s (permits_powerPolicy rfl rfl _ _ _)
  | div e | divl e | inv e =>
    exact reports_guard s _ rfl (reports_finish s (permits_roundPolicy rfl rfl _ _))
  | avg e | tol e => exact reports_finishFit s rfl (roundq_onlyRounds _ _ _)
  | sqrt e => exact reports_guard s _ rfl (reports_finishFit s rfl (roundRoot_onlyRounds _ _))
  | rinc e => exact reports_guard s _ rfl (reports_finishFit s rfl (inc_onlyRounds _ _ _ _))
  | rincd e => exact reports_guard s _ rfl (reports_finishFit s rfl (incd_onlyRounds _ _ _ _ _))
  | pow e =>
    have value : Permits (.pow e) (powValue e s.opA s.opN) :=
      permits_powValue (i := .pow e) rfl rfl rfl s.opA s.opN
    rw [exec, execPow]
    generalize powValue e s.opA s.opN = res at value ⊢
    obtain c | ⟨p, v⟩ := res
    · exact reports_raise s value
    · exact reports_succeed s _ value

end

theorem mayReport_of_exec {i : Instr} {s t : State} (run : exec i s = .next t) :
    MayReport i t.status := by
  obtain ⟨u, same, report⟩ := exec_reports s i
  obtain rfl : t = u := Host.Outcome.next.inj (run.symm.trans same)
  exact report

/-- Settles O20: every command reports within its table. -/
theorem faultsFollowCauseTable : Obligations.FaultsFollowCauseTable :=
  fun _ _ _ => mayReport_of_exec

/-! ### A consistent `STATUS` (R140, spec/30_encoding.md R52) -/

section
variable {s t : State}

theorem statusExplained_of_ok {i : Instr} (decoded : decode s.cmd = .ok i)
    (report : MayReport i s.status) : StatusExplained s := by
  rw [StatusExplained, decoded]
  exact report

theorem statusExplained_of_illegal (illegal : ¬ ∃ i, decode s.cmd = .ok i)
    (report : s.status = 0x51#32) : StatusExplained s := by
  rw [StatusExplained]
  cases decoded : decode s.cmd with
  | ok i => exact absurd ⟨i, decoded⟩ illegal
  | error d => exact report

/-- The invariant is about `STATUS` and `CMD` alone. -/
theorem statusExplained_congr (status : t.status = s.status) (cmd : t.cmd = s.cmd)
    (h : StatusExplained s) : StatusExplained t := by
  rwa [StatusExplained, status, cmd]

/-- `STATUS` and `CMD` both 0, as a reset leaves them, are the report of a NOP. -/
theorem statusExplained_of_zero (status : s.status = 0#32) (cmd : s.cmd = 0#32) :
    StatusExplained s := by
  have nop : decode s.cmd = .ok (.nop ⟨0#5, .up, .unchecked⟩) := by
    rw [cmd]
    decide
  exact statusExplained_of_ok nop (.inl status)

/-- A launch explains the new `STATUS`, whatever stood there before. -/
theorem statusExplained_of_execute (run : execute s = .next t) : StatusExplained t := by
  by_cases legal : ∃ i, decode s.cmd = .ok i
  · obtain ⟨i, decoded⟩ := legal
    rw [execute_of_legal decoded] at run
    obtain ⟨frame, -, -⟩ := writesFollowTable i s t run
    have cmd : t.cmd = s.cmd := by rw [frame]
    exact statusExplained_of_ok (cmd ▸ decoded) (mayReport_of_exec run)
  · rw [execute_of_illegal legal] at run
    obtain rfl := Host.Outcome.next.inj run
    exact statusExplained_of_illegal legal statusFault_illegalCommand

theorem State.writeReg_status (s : State) (data : Word) (p : PortReg) :
    (s.writeReg data p).status = s.status := by
  cases p <;> rfl

theorem State.writeReg_cmd (s : State) (data : Word) {p : PortReg} (h : p ≠ .cmd) :
    (s.writeReg data p).cmd = s.cmd := by
  cases p with
  | cmd => exact absurd rfl h
  | _ => rfl

theorem statusExplained_of_transact {x : HostTxn} (h : StatusExplained s)
    (run : transact x s = .next t) : StatusExplained t := by
  cases x with
  | write index data =>
    obtain ⟨-, launch⟩ | ⟨other, stored⟩ := hostWrite_cases run
    · exact statusExplained_of_execute launch.symm
    · obtain rfl := Host.Outcome.next.inj stored
      exact statusExplained_congr (State.writeReg_status _ _ _) (State.writeReg_cmd _ _ other) h
  | read index =>
    obtain rfl := Host.Outcome.next.inj run
    exact statusExplained_congr rfl rfl h
  | reset =>
    obtain rfl := Host.Outcome.next.inj run
    exact statusExplained_of_zero (hostReset_status _) (hostReset_cmd _)

end

/-- Settles O11: the reset state holds a NOP's report. -/
theorem resetStatusExplained : Obligations.ResetStatusExplained :=
  ⟨rfl, rfl, State.faultLine_of_status_zero rfl, statusExplained_of_zero rfl rfl⟩

/-- Settles O12: a launch explains `STATUS` anew, a reset leaves a NOP's report, and every other step keeps
both registers. -/
theorem statusStaysExplained : Obligations.StatusStaysExplained := by
  intro s t explained run
  obtain ⟨-, idle⟩ | ⟨x, rest, -, taken⟩ := step_cases run
  · obtain rfl := Host.Outcome.next.inj idle
    exact explained
  · exact statusExplained_of_transact (s := { s with pending := rest }) explained taken.symm

/-- Settles O13: every step answers, and keeps the invariant. -/
theorem runsNeverStop : Obligations.RunsNeverStop := by
  intro s explained k
  induction k generalizing s with
  | zero => exact ⟨s, rfl, explained⟩
  | succ k ih =>
    obtain ⟨u, first⟩ := step_answers s
    obtain ⟨t, others, explained'⟩ := ih u (statusStaysExplained s u explained first)
    exact ⟨t, (run_succ k first).trans others, explained'⟩

end Sys2Proof.Machine
end

section
/-! SUPPORT. The fields of the triple that a command does not use (spec/30_encoding.md R53). -/

namespace Sys2Proof.Machine

/-- Settles O22: the cases go by the fields a command uses; with those made equal the two runs are one
computation. -/
theorem unusedFieldsIgnored : Obligations.UnusedFieldsIgnored := by
  rintro i ⟨scale, rm, ov⟩ ⟨scale', rm', ov'⟩ s sameScale sameRm sameOv
  cases i with
  | nop | add64w | mul64 | divw | wneg | wfits | wisneg | wsignum | isqrt | cmp | sgn => rfl
  | sfget | sfmaxi | sfmini | sfmul | sfdiv | sfmod =>
    obtain rfl : scale = scale' := sameScale rfl
    rfl
  | rinc | rincd | avg =>
    obtain rfl : rm = rm' := sameRm rfl
    rfl
  | add | sub | mull | abs | neg =>
    obtain rfl : ov = ov' := sameOv rfl
    rfl
  | sqrt | tol =>
    obtain rfl : scale = scale' := sameScale rfl
    obtain rfl : rm = rm' := sameRm rfl
    rfl
  | froml =>
    obtain rfl : scale = scale' := sameScale rfl
    obtain rfl : ov = ov' := sameOv rfl
    rfl
  | mulp10 | divl | divp10 | shl | shr =>
    obtain rfl : rm = rm' := sameRm rfl
    obtain rfl : ov = ov' := sameOv rfl
    rfl
  | mul | sqr | div | inv | pow | rescale =>
    obtain rfl : scale = scale' := sameScale rfl
    obtain rfl : rm = rm' := sameRm rfl
    obtain rfl : ov = ov' := sameOv rfl
    rfl

end Sys2Proof.Machine
end

section
/-! SUPPORT. The reference rounds every real number (spec/41_rounding_and_overflow.md section 1), and what
the increment adds: its direction (R71, R72) and its digit form (R80). -/

namespace Sys2Proof.Machine

/-! ### Existence of the rounded integer -/

/-- Every real number is an integer and a fraction on the same side of zero. -/
theorem exists_truncation (q : ℝ) : ∃ t : ℤ, |q - t| < 1 ∧ 0 ≤ t * (q - t) := by
  have floor := Int.floor_le q
  have next := Int.lt_floor_add_one q
  have ceil := Int.le_ceil q
  have previous := Int.ceil_lt_add_one q
  obtain nonneg | neg := le_or_gt 0 q
  · have whole : (0 : ℝ) ≤ ⌊q⌋ := by exact_mod_cast Int.floor_nonneg.mpr nonneg
    exact ⟨⌊q⌋, abs_lt.mpr ⟨by linarith, by linarith⟩, mul_nonneg whole (by linarith)⟩
  · have whole : (⌈q⌉ : ℝ) ≤ 0 := by exact_mod_cast Int.ceil_nonpos.mpr neg.le
    exact ⟨⌈q⌉, abs_lt.mpr ⟨by linarith, by linarith⟩,
      mul_nonneg_of_nonpos_of_nonpos whole (by linarith)⟩

theorem exists_roundsTo {rm : RoundingMode} (mode : rm ≠ .unnecessary) (q : ℝ) :
    ∃ x : ℤ, RoundsTo rm q x := by
  obtain ⟨t, small, side⟩ := exists_truncation q
  rw [← add_sub_cancel (t : ℝ) q]
  by_cases moves : MovesAway rm t (q - t)
  · exact ⟨_, roundsTo_stepAway small side moves⟩
  · exact ⟨t, roundsTo_truncated small side moves (absurd · mode)⟩

/-- Settles O24: the truncated part, or its neighbour away from zero, is the rounded integer, and no other
is. -/
theorem everyModeRoundsOnce : Obligations.EveryModeRoundsOnce := by
  intro rm q
  refine ⟨fun mode => ?_, fun mode x => ?_⟩
  · obtain ⟨x, hx⟩ := exists_roundsTo mode q
    exact ⟨x, hx, fun y hy => roundsTo_unique hy hx⟩
  · rw [mode]
    rfl

/-! ### The direction of the increment -/

/-- The increment is 0 or has the sign of the true quotient (R71). -/
theorem inc_eq_zero_or_sign {rm : RoundingMode} {n d i : ℤ} (hd : d ≠ 0)
    (h : inc rm (n.tdiv d) (n.tmod d) d = .ok i) : i = 0 ∨ i = (n * d).sign := by
  by_cases hr : n.tmod d = 0
  · left
    simpa [inc, hr, eq_comm] using h
  rw [inc_eq_fracInc hd, fracInc] at h
  split_ifs at h with fault moves
  · right
    rw [← stepAway_tmod_div hd hr, Except.ok.inj h]
  · left
    rw [Except.ok.inj h]

/-- The truncated quotient is 0 or has the sign of the true quotient. -/
theorem tdiv_mul_sign_nonneg (n d : ℤ) : 0 ≤ n.tdiv d * (n * d).sign := by
  rw [← Int.sign_nonneg_iff, Int.sign_mul, Int.sign_tdiv, Int.sign_sign, Int.sign_mul]
  split_ifs
  · simp
  · exact mul_self_nonneg _

/-- Settles O25: the increment is 0 or the sign of the true quotient, which the truncated quotient has
too. -/
theorem incrementMovesAway : Obligations.IncrementMovesAway := by
  intro rm n d i hd h
  obtain zero | sign := inc_eq_zero_or_sign hd h
  · subst zero
    simp
  · have side : 0 ≤ n.tdiv d * i := sign ▸ tdiv_mul_sign_nonneg n d
    have magnitudes : |n.tdiv d + i| = |n.tdiv d| + |i| :=
      (abs_add_eq_add_abs_iff _ _).mpr (mul_nonneg_iff.mp side)
    refine ⟨inc_range h, ?_, side, fun _ => sign⟩
    rw [magnitudes]
    exact le_add_of_nonneg_right (abs_nonneg i)

/-! ### The digit form -/

/-- As a fraction of `10^(k+1)`, a number of `k + 1` digits has its highest digit as first digit, and
further non-zero digits exactly where the `k` lower ones are not all 0. -/
theorem digitFraction_of_digits (m k : ℕ) :
    DigitFraction (m / 10 ^ k) (decide (m % 10 ^ k ≠ 0)) ((m : ℝ) / 10 ^ (k + 1)) := by
  have unit : (0 : ℝ) < 10 ^ k := by positivity
  have split : (m : ℝ) = 10 ^ k * (m / 10 ^ k : ℕ) + (m % 10 ^ k : ℕ) := by
    exact_mod_cast (Nat.div_add_mod m (10 ^ k)).symm
  have rest : ((m % 10 ^ k : ℕ) : ℝ) < 10 ^ k := by
    exact_mod_cast Nat.mod_lt m (by positivity)
  have fraction : (m : ℝ) / 10 ^ (k + 1) =
      ((m / 10 ^ k : ℕ) : ℝ) / 10 + ((m % 10 ^ k : ℕ) : ℝ) / 10 ^ (k + 1) := by
    rw [split, pow_succ]
    field_simp
  refine ⟨?_, ?_, ?_⟩
  · rw [fraction]
    exact le_add_of_nonneg_right (by positivity)
  · rw [fraction, add_div, add_lt_add_iff_left, pow_succ, div_lt_div_iff₀ (by positivity) (by norm_num)]
    linarith
  · rw [fraction, add_eq_left, div_eq_zero_iff, or_iff_left (by positivity), Nat.cast_eq_zero,
      decide_eq_false_iff_not, not_not]

theorem signedFraction_natAbs_div (r : ℤ) {p : ℝ} :
    signedFraction (decide (r < 0)) ((r.natAbs : ℝ) / p) = (r : ℝ) / p := by
  rw [Nat.cast_natAbs, Int.cast_abs, signedFraction]
  obtain neg | nonneg := lt_or_ge r 0
  · have : (r : ℝ) < 0 := by exact_mod_cast neg
    rw [decide_eq_true neg, if_pos rfl, abs_of_neg this, neg_div, neg_neg]
  · have : (0 : ℝ) ≤ r := by exact_mod_cast nonneg
    simp [nonneg, abs_of_nonneg this]

/-- Settles O30: both forms are the increment of the fraction the discarded digits make. -/
theorem digitIncrementAgrees : Obligations.DigitIncrementAgrees := by
  intro rm t r k _
  have hd : (10 : ℤ) ^ (k + 1) ≠ 0 := by positivity
  rw [incd_eq_fracInc (digitFraction_of_digits r.natAbs k), signedFraction_natAbs_div,
    inc_eq_fracInc hd]
  norm_cast

end Sys2Proof.Machine
end

section
/-! SUPPORT. POW (spec/44_engine_div_sqrt_pow.md R122): one step, the loop along a chain of steps, and the
outcomes. -/

namespace Sys2Proof.Machine

/-! ### One step -/

theorem policy_of_completes {ov : OverflowMode} {x : ℤ} (h : ov = .unchecked ∨ fits64 x = true) :
    policy ov x = .ok (wrap64 x, !fits64 x) := by
  obtain ⟨value, -⟩ | ⟨-, checked, noFit⟩ := policy_cases ov x
  · exact value
  · simp [checked, noFit] at h

section
variable {e : Engine} {n d x : ℤ} {q : ℝ} (hd : d ≠ 0) (value : (n : ℝ) / d = q) (v : Bool)
include hd value

theorem powStep_of_completes (hx : RoundsTo e.rm q x) (completes : e.ov = .unchecked ∨ fits64 x = true) :
    powStep e n d v = .ok (s64 (wrap64 x), v || !fits64 x) := by
  subst value
  rw [powStep, roundPolicy, (roundq_isRounding e.rm n hd).ok x hx, thenPolicy,
    policy_of_completes completes]

theorem powStep_of_overflow (hx : RoundsTo e.rm q x) (checked : e.ov = .checked)
    (noFit : fits64 x = false) : powStep e n d v = .error .overflow := by
  subst value
  rw [powStep, roundPolicy, (roundq_isRounding e.rm n hd).ok x hx, thenPolicy, checked,
    policy_checked noFit]

theorem powStep_of_inexact (mode : e.rm = .unnecessary) (inexact : ∀ y : ℤ, q ≠ y) :
    powStep e n d v = .error .roundingRequired := by
  subst value
  rw [powStep, roundPolicy, (roundq_isRounding e.rm n hd).inexact mode inexact, thenPolicy]

end

theorem cast_mul_div_scaleFactor (e : Engine) (p b : ℤ) :
    ((p * b : ℤ) : ℝ) / scaleFactor e.scale = (p : ℝ) * b / realFactor e := by
  rw [Int.cast_mul, cast_scaleFactor]

theorem cast_sq_scaleFactor_div (e : Engine) (p : ℤ) :
    ((scaleFactor e.scale * scaleFactor e.scale : ℤ) : ℝ) / p =
      realFactor e * realFactor e / p := by
  rw [Int.cast_mul, cast_scaleFactor]

/-! ### The loop -/

/-- What the loop does after the square of a round, at bit `k` of the exponent: the multiply where the bit
is 1, and the rounds below. -/
def powAfterSquare (e : Engine) (a : ℤ) (ex k : ℕ) (sq : ℤ) (v : Bool) : Except Cause (ℤ × Bool) :=
  if ex.testBit k then
    match powStep e (sq * a) (scaleFactor e.scale) v with
    | .error c => .error c
    | .ok (pr, v') => powLoop e a ex k pr v'
  else powLoop e a ex k sq v

section
variable {e : Engine} {a : ℤ} {ex k : ℕ} {p x : ℤ} {v v' : Bool} {c : Cause}

theorem powLoop_succ_of_ok (square : powStep e (p * p) (scaleFactor e.scale) v = .ok (x, v')) :
    powLoop e a ex (k + 1) p v = powAfterSquare e a ex k x v' := by
  rw [powLoop, square]
  rfl

theorem powLoop_succ_of_error (square : powStep e (p * p) (scaleFactor e.scale) v = .error c) :
    powLoop e a ex (k + 1) p v = .error c := by
  rw [powLoop, square]

theorem powAfterSquare_of_bit_zero (bit : ex.testBit k = false) :
    powAfterSquare e a ex k p v = powLoop e a ex k p v := by
  rw [powAfterSquare, if_neg (by simp [bit])]

theorem powAfterSquare_of_ok (bit : ex.testBit k = true)
    (multiply : powStep e (p * a) (scaleFactor e.scale) v = .ok (x, v')) :
    powAfterSquare e a ex k p v = powLoop e a ex k x v' := by
  rw [powAfterSquare, if_pos bit, multiply]

theorem powAfterSquare_of_error (bit : ex.testBit k = true)
    (multiply : powStep e (p * a) (scaleFactor e.scale) v = .error c) :
    powAfterSquare e a ex k p v = .error c := by
  rw [powAfterSquare, if_pos bit, multiply]

end

/-! ### The leading bits of the exponent -/

section
variable {ex j k : ℕ}

theorem testBit_of_leading_even (h : ex / 2 ^ j = 2 * k) : ex.testBit j = false := by
  rw [Nat.testBit_eq_decide_div_mod_eq, decide_eq_false_iff_not]
  omega

theorem testBit_of_leading_odd (h : ex / 2 ^ j = 2 * k + 1) : ex.testBit j = true := by
  rw [Nat.testBit_eq_decide_div_mod_eq, decide_eq_true_iff]
  omega

/-- The leading bits without the last of them. -/
theorem leading_succ (ex j : ℕ) : ex / 2 ^ (j + 1) = ex / 2 ^ j / 2 := by
  rw [Nat.div_div_eq_div_mul, pow_succ]

theorem leading_succ_of_even (h : ex / 2 ^ j = 2 * k) : ex / 2 ^ (j + 1) = k := by
  rw [leading_succ]
  omega

theorem leading_succ_of_odd (h : ex / 2 ^ j = 2 * k + 1) : ex / 2 ^ (j + 1) = k := by
  rw [leading_succ]
  omega

/-- One leading bit is the highest bit, where the loop starts. -/
theorem powMagnitude_of_leading_one (e : Engine) (a : ℤ) (h : ex / 2 ^ j = 1) :
    powMagnitude e a ex = powLoop e a ex j a false := by
  obtain ⟨low, high⟩ := (Nat.div_eq_iff (by positivity)).mp h
  have positive : 0 < 2 ^ j := by positivity
  have nonzero : ex ≠ 0 := by omega
  have highest : ex.log2 = j := by
    rw [Nat.log2_eq_iff nonzero, pow_succ]
    omega
  rw [powMagnitude, if_neg nonzero, highest]

end

/-- Where a chain has spelled the leading bits of the exponent, the loop stands at the chain's end: before
the bits below, and, for a chain that ends with a square, before the multiply of that round. -/
theorem powMagnitude_of_chain {e : Engine} {a p : ℤ} {k ex : ℕ} {v : Bool} (chain : PowChain e a k p v) :
    (∀ j, ex / 2 ^ j = k → powMagnitude e a ex = powLoop e a ex j p v) ∧
    (∀ j, 2 * (ex / 2 ^ (j + 1)) = k → powMagnitude e a ex = powAfterSquare e a ex j p v) := by
  have factor := (scaleFactor_pos e.scale).ne'
  induction chain with
  | start => exact ⟨fun j => powMagnitude_of_leading_one e a, fun j even => by omega⟩
  | @square k p v _ x hx completes ih =>
    obtain ⟨before, -⟩ := ih
    have square := powStep_of_completes factor (cast_mul_div_scaleFactor e p p) v hx completes
    have afterSquare (j : ℕ) (leading : ex / 2 ^ (j + 1) = k) :
        powMagnitude e a ex = powAfterSquare e a ex j (s64 (wrap64 x)) (v || !fits64 x) :=
      (before (j + 1) leading).trans (powLoop_succ_of_ok square)
    refine ⟨fun j leading => ?_, fun j leading => afterSquare j (by omega)⟩
    rw [afterSquare j (leading_succ_of_even leading),
      powAfterSquare_of_bit_zero (testBit_of_leading_even leading)]
  | @multiply k p v _ x hx completes ih =>
    obtain ⟨-, afterSquare⟩ := ih
    have multiply := powStep_of_completes factor (cast_mul_div_scaleFactor e p a) v hx completes
    refine ⟨fun j leading => ?_, fun j even => by omega⟩
    rw [afterSquare j (congrArg (2 * ·) (leading_succ_of_odd leading)),
      powAfterSquare_of_ok (testBit_of_leading_odd leading) multiply]

/-- A chain that has spelled the whole exponent ends at the positive power. -/
theorem powMagnitude_of_whole_chain {e : Engine} {a p : ℤ} {ex : ℕ} {v : Bool}
    (chain : PowChain e a ex p v) : powMagnitude e a ex = .ok (p, v) :=
  (powMagnitude_of_chain chain).1 0 (by simp)

/-! ### The command -/

section
variable {e : Engine} {s : State} {a n p : ℤ} {v : Bool} {c : Cause}

theorem powValue_of_error (h : powMagnitude e a n.natAbs = .error c) : powValue e a n = .error c := by
  rw [powValue, h]

theorem powValue_of_nonneg (h : powMagnitude e a n.natAbs = .ok (p, v)) (nonneg : 0 ≤ n) :
    powValue e a n = .ok (p, v) := by
  simp only [powValue, h, if_neg nonneg.not_gt]

theorem powValue_of_neg_zero (h : powMagnitude e a n.natAbs = .ok (0, v)) (neg : n < 0) :
    powValue e a n = .error .divisionByZero := by
  simp only [powValue, h, if_pos neg, if_true]

theorem powValue_of_neg (h : powMagnitude e a n.natAbs = .ok (p, v)) (neg : n < 0) (hp : p ≠ 0) :
    powValue e a n = powStep e (scaleFactor e.scale * scaleFactor e.scale) p v := by
  simp only [powValue, h, if_pos neg, if_neg hp]

theorem exec_pow_of_ok (h : powValue e s.opA s.opN = .ok (p, v)) :
    exec (.pow e) s =
      .next { s with r := wrap64 p, status := if v then 0x02#32 else 0x00#32 } := by
  rw [exec, execPow, h]
  cases v <;> simp [State.succeed]

theorem exec_pow_of_error (h : powValue e s.opA s.opN = .error c) :
    exec (.pow e) s = .next { s with status := statusFault c } := by
  rw [exec, execPow, h]
  rfl

end

/-- Settles O51: a chain over the whole exponent is the positive power, and the inversion is one step
more. -/
theorem powFollowsChain : Obligations.PowFollowsChain := by
  intro e s
  refine ⟨rfl, fun zero => ?_, fun p v chain => ⟨fun pos => ?_, fun neg hp x hx completes => ?_⟩⟩
  · have one : powValue e s.opA s.opN = .ok (scaleFactor e.scale, false) :=
      powValue_of_nonneg (by simp [powMagnitude, State.opN, zero]) zero.ge
    rw [exec_pow_of_ok one, scaleFactor_eq_pow]
    rfl
  · exact exec_pow_of_ok (powValue_of_nonneg (powMagnitude_of_whole_chain chain) pos.le)
  · have invert := powStep_of_completes hp (cast_sq_scaleFactor_div e p) v hx completes
    rw [← powValue_of_neg (powMagnitude_of_whole_chain chain) neg hp] at invert
    rw [exec_pow_of_ok invert, wrap64_s64]

section
variable {e : Engine} {s : State} {n d : ℤ} {q : ℝ} (v : Bool)

/-- Where the fault of a step is the command's, the command faults by what the step would round. -/
theorem exec_pow_faults_of_step (hd : d ≠ 0) (value : (n : ℝ) / d = q)
    (ends : ∀ c, powStep e n d v = .error c → powValue e s.opA s.opN = .error c) :
    (e.rm = .unnecessary → (∀ x : ℤ, q ≠ x) →
      exec (.pow e) s = .next { s with status := 0x21#32 }) ∧
    (e.ov = .checked → ∀ x : ℤ, RoundsTo e.rm q x → fits64 x = false →
      exec (.pow e) s = .next { s with status := 0x13#32 }) := by
  refine ⟨fun mode inexact => ?_, fun checked x hx noFit => ?_⟩
  · rw [exec_pow_of_error (ends _ (powStep_of_inexact hd value v mode inexact)),
      statusFault_roundingRequired]
  · rw [exec_pow_of_error (ends _ (powStep_of_overflow hd value v hx checked noFit)),
      statusFault_overflow]

end

/-- Settles O52: the chain has brought the loop to the step in question, whose fault ends the command. -/
theorem powFaultsAtFirstStep : Obligations.PowFaultsAtFirstStep := by
  intro e s k j p v
  have factor := (scaleFactor_pos e.scale).ne'
  refine ⟨fun leading chain => ?_, fun leading chain => ?_, fun neg chain => ?_⟩
  · refine exec_pow_faults_of_step v factor (cast_mul_div_scaleFactor e p p) fun c fault => ?_
    have before := (powMagnitude_of_chain chain).1 (j + 1) leading
    exact powValue_of_error (before.trans (powLoop_succ_of_error fault))
  · refine exec_pow_faults_of_step v factor (cast_mul_div_scaleFactor e p (s64 s.a)) fun c fault => ?_
    have square := (powMagnitude_of_chain chain).2 j (congrArg (2 * ·) (leading_succ_of_odd leading))
    exact powValue_of_error
      (square.trans (powAfterSquare_of_error (testBit_of_leading_odd leading) fault))
  · have whole := powMagnitude_of_whole_chain chain
    have invert (hp : p ≠ 0) := exec_pow_faults_of_step (s := s) v hp (cast_sq_scaleFactor_div e p)
      fun c fault => (powValue_of_neg whole neg hp).trans fault
    refine ⟨?_, fun hp => (invert hp).1, fun hp => (invert hp).2⟩
    rintro rfl
    rw [exec_pow_of_error (powValue_of_neg_zero whole neg), statusFault_divisionByZero]

end Sys2Proof.Machine
end

section
/-! SUPPORT. Multiplying and dividing by the same operand (S6 of spec/95_test_vectors.md). -/

namespace Sys2Proof.Machine

theorem roundsTo_intCast (rm : RoundingMode) (x : ℤ) : RoundsTo rm x x := by
  have whole := roundsTo_truncated (t := x) (q := 0) (by simp) (by simp) (not_movesAway_zero rm x)
    fun _ => rfl
  rwa [add_zero] at whole

/-- A command whose exact value is an integer within 64 bits leaves that integer, in every mode. -/
theorem exec_of_roundedCommand_int {i : Instr} {s : State} {q : ℝ} {x : ℤ} (h : RoundedCommand i q s)
    (integer : q = x) (fits : fits64 x = true) :
    exec i s = .next { s with r := wrap64 x, status := 0x00#32 } := by
  obtain ⟨completes, -, -⟩ := h
  rw [completes x (integer ▸ roundsTo_intCast _ x) (.inr fits), if_pos fits]

/-- Settles O58: the product is `m` exactly, and `m` over the second operand is the first. -/
theorem divideUndoesMultiply : Obligations.DivideUndoesMultiply := by
  intro e s m nonzero product fits
  rw [← scaleFactor_eq_pow] at product
  obtain ⟨-, multiply⟩ := mulMeetsReference e s
  obtain ⟨-, -, divide⟩ := divMeetsReference e { s with a := wrap64 m }
  refine ⟨exec_of_roundedCommand_int multiply ?_ fits, ?_⟩
  · rw [decimal_product_eq, div_eq_iff (realFactor_ne_zero e), ← cast_scaleFactor]
    exact_mod_cast product
  · have hb : (s64 s.b : ℝ) ≠ 0 := Int.cast_ne_zero.mpr (mt s64_eq_zero_iff.mp nonzero)
    have back := exec_of_roundedCommand_int (x := s64 s.a) (divide nonzero) ?_ (fits64_s64 s.a)
    · rwa [wrap64_s64] at back
    · rw [← decimal_quotient_eq, s64_wrap64 fits, ← product, Int.cast_mul, mul_div_cancel_right₀ _ hb]

end Sys2Proof.Machine
end
